-- ==== Sys2Proof/Word.lean ====
section
/-! DEFINITION. The words of the sequencer: a byte on the bus, a command word, a code register. -/

namespace Sys2Proof

/-- One byte on the wire, and one device register (R26, R28). -/
abbrev Byte := BitVec 8

/-- The command word on `cmd_word` (R48). -/
abbrev Word := BitVec 32

/-- The 15-bit sensor code (R6 `CODE_BITS`, R66). -/
abbrev Code := BitVec 15

end Sys2Proof
end

