-- ==== Sys2Proof/Syntax.lean ====
section
/-! DEFINITION. The commands of the sequencer, one constructor per row of spec/opcode_table.json, and the
names of the words that are no command. -/

namespace Sys2Proof

/-- A command (R50). The operands are the unsigned numbers the command word's fields hold (R49, R54):
`mode` is MODE, `wires` is WIRES, `hz` is HZ. Every value a field can hold is a legal operand (R51 to R53);
`Instr.WellFormed` says which numbers the fields can hold. -/
inductive Instr where
  | start (mode wires hz : Nat)
  | read
  deriving DecidableEq, Repr

/-- Why a word is reserved (R55), one name for each case of that rule. -/
inductive ReservedWord where
  /-- `OP = 0b00`. -/
  | op00
  /-- `OP = 0b11`. -/
  | op11
  /-- `OP = 0b01` with `cmd_word[7:4] ≠ 0`. -/
  | startBits7to4
  /-- `OP = 0b01` with `cmd_word[7:4] = 0` and `cmd_word[31:24] ≠ 0`. -/
  | startBits31to24
  /-- `OP = 0b10` with `cmd_word[31:2] ≠ 0`. -/
  | readBits31to2
  deriving DecidableEq, Repr

/-- What a command word is: a command or, by name, a reserved word. R56: there is no third case. -/
inductive Decoded where
  | command (i : Instr)
  | reserved (why : ReservedWord)
  deriving DecidableEq, Repr

end Sys2Proof
end

