-- ==== Sys2Proof/WellFormed.lean ====
section
/-! DEFINITION. Which operand numbers a command word can hold. -/

namespace Sys2Proof

/-- The operands fit their fields: MODE has 2 bits (R51), WIRES and HZ have 8 bits each (R52, R53, R57).
A well-formed START may still end in an input error (R70). -/
abbrev Instr.WellFormed : Instr → Prop
  | .start mode wires hz => mode ≤ 3 ∧ wires ≤ 255 ∧ hz ≤ 255
  | .read => True

end Sys2Proof
end

