-- ==== Sys2Proof/Decode.lean ====
section
/-! DEFINITION. The command word: decoder, encoder (R48 to R57). -/

namespace Sys2Proof

/-- Bits `lo + n − 1` down to `lo` of the command word as an unsigned number (R7). -/
def field (w : Word) (lo n : Nat) : Nat := (w.extractLsb' lo n).toNat

/-- `OP = cmd_word[1:0]` (R49, R50). -/
def opField (w : Word) : Nat := field w 0 2

/-- `MODE = cmd_word[3:2]` (R49, R54). -/
def modeField (w : Word) : Nat := field w 2 2

/-- `WIRES = cmd_word[15:8]` (R49, R54). -/
def wiresField (w : Word) : Nat := field w 8 8

/-- `HZ = cmd_word[23:16]` (R49, R54). -/
def hzField (w : Word) : Nat := field w 16 8

/-- The decoder, total on all words: a command (R50), or the reason the word is reserved (R55). -/
def decode (w : Word) : Decoded :=
  match opField w with
  | 0 => .reserved .op00
  | 1 =>
    if field w 4 4 ≠ 0 then .reserved .startBits7to4
    else if field w 24 8 ≠ 0 then .reserved .startBits31to24
    else .command (.start (modeField w) (wiresField w) (hzField w))
  | 2 => if field w 2 30 ≠ 0 then .reserved .readBits31to2 else .command .read
  | _ => .reserved .op11

/-- The encoder of R57. -/
def encode : Instr → Word
  | .start mode wires hz =>
    BitVec.ofNat 32 hz <<< 16 ||| BitVec.ofNat 32 wires <<< 8 ||| BitVec.ofNat 32 mode <<< 2 ||| 0b01#32
  | .read => 0x00000002#32

/-- The decoder on an instruction's bits as spec/opcode_table.json numbers them. Every row is one 32-bit
word presented whole on a parallel port (R34, R48), so there is no byte order to undo. -/
def decodeTableWord (nbits w : Nat) : Option Instr :=
  match decode (BitVec.ofNat 32 (w % 2 ^ nbits)) with
  | .command i => some i
  | .reserved _ => none

end Sys2Proof
end

