-- ==== Sys2Proof/Config.lean ====
section
/-! DEFINITION. What an implementation of the sequencer fixes (R6), and the free values: the answers of
the device. Every `opaque` here has no body, so no proof can see its value. -/

namespace Sys2Proof

/-- A calibration table of this hardware: its length and entries with the constraints of R98 to R100.
Entries are signed hundredths of a degree Celsius. The default values only show that such a table exists;
nothing can be proved of `Config.table` from them. -/
structure CalTable where
  /-- `TABLE_LEN` (R6). -/
  len : Nat := 7180
  /-- `CAL_TABLE`, 16-bit signed entries (R98). -/
  entry : Fin len → BitVec 16 :=
    fun i => BitVec.ofInt 16 (if i.val < 965 then -3000 else if i.val < 7179 then 0 else 20000)
  /-- R99: `TABLE_LEN ≥ 7180`. -/
  len_ge : 7180 ≤ len := by decide
  /-- R99: −30.00 °C at index 0. -/
  entry_0 : (entry ⟨0, by omega⟩).toInt = -3000 := by decide
  /-- R99: 0.00 °C at index 965. -/
  entry_965 : (entry ⟨965, by omega⟩).toInt = 0 := by decide
  /-- R99: 200.00 °C at index 7179. -/
  entry_7179 : (entry ⟨7179, by omega⟩).toInt = 20000 := by decide
  /-- R100: the table is non-decreasing. -/
  entry_mono : ∀ (i : Nat) (h : i + 1 < len),
      (entry ⟨i, by omega⟩).toInt ≤ (entry ⟨i + 1, h⟩).toInt := by
    intro i h
    dsimp
    repeat' split
    all_goals first | decide | omega
  deriving Inhabited

namespace Config

/-- `TABLE_LEN` and `CAL_TABLE`, OPEN parameters (R6, R22, D25). -/
opaque table : CalTable

/-- `SETTLE_MS`, an OPEN parameter, a natural number of milliseconds (R6, D16). -/
opaque settleMs : Nat

/-- The byte the device answers after `n` earlier answers, where it has chosen none, under no law (R32). -/
opaque drawByte : Nat → Byte

/-- The Boolean `dataReady()` returns after `n` earlier answers, where the device has chosen none, under no
law (R32). -/
opaque drawReady : Nat → Bool

/-- `MIN_CODE` (R6). -/
abbrev minCode : Nat := 7227

/-- `MAX_CODE = MIN_CODE + TABLE_LEN − 1` (R6). -/
def maxCode : Nat := minCode + table.len - 1

/-- `RREF` in ohms (R6); it enters no rule of the sequencer. -/
def rrefOhms : Nat := 400

/-- `RTD_R0` in ohms (R6); it enters no rule of the sequencer. -/
def rtdR0Ohms : Nat := 100

end Config

end Sys2Proof
end

