-- ==== Sys2Proof/Machine/State.lean ====
section
/-! DEFINITION. The machine's state as plain data: the sequencer's registers (R16, R17, R18, R21), the host's
input port, the boundary history, the responses, and the moves and answers of the other agents. -/

namespace Sys2Proof.Machine

/-- The micro-states of R14, in the order of their codes. -/
inductive MicroState where
  | idle
  | cP1CsEnter | cP1Write | cP1Readback | cP1CsLeave
  | cDelay
  | cP2CsEnter | cP2Write | cP2Readback | cP2CsLeave
  | rReady | rCode | rFault | rConvert
  deriving DecidableEq, Repr

/-- The source's states, which the output `fsm_state` reports (R15). -/
inductive FsmState where
  | unconfigured | armed | configuring | reading | faulted
  deriving DecidableEq, Repr

/-- The statuses of R58. -/
inductive Status where
  | ok | oldReading
  | wireInputError | hzInputError | modeInputError
  | errorPreconfiguring | errorConfiguring
  | brokenRtdWire | circuitMalfunction | unknownError
  | outOfRange
  deriving DecidableEq, Repr

/-- One record of the boundary history (R31). -/
inductive Event where
  /-- `BusWr(a, v)`: byte `v` was written to device register `a`. -/
  | busWr (a v : Byte)
  /-- `BusRd(a, n, bytes)`: `n` bytes were read starting at device register `a`, the first received first. -/
  | busRd (a : Byte) (n : Nat) (bytes : List Byte)
  /-- `Rdy(b)`: the data-ready query returned `b`. -/
  | rdy (b : Bool)
  /-- `Dly(n)`: the platform waited `n` milliseconds. -/
  | dly (ms : Nat)
  /-- `CsE`: the critical section was entered. -/
  | csE
  /-- `CsL`: the critical section was left. -/
  | csL
  deriving DecidableEq, Repr

/-- A call on the transport boundary (R30, R31). -/
inductive TransportCall where
  | transmit (bytes : List Byte)
  | receive (count : Nat)
  | dataReady
  | delayMilliseconds (n : Nat)
  | enterCriticalSection
  | leaveCriticalSection
  deriving DecidableEq, Repr

/-- The agents that take steps (R5). -/
inductive Agent where
  | seq | host | dev | plat | other
  deriving DecidableEq, Repr

/-- One move of one agent: the liberties of R127, the sequencer's own step, and reset (R130). -/
inductive Move where
  /-- SEQ: one step of the sequencer. -/
  | seq
  /-- HOST: present a word; over a word still waiting, the word changes (R127, X18). A host that takes a
  waiting word away has no move: it breaks the duty of R127 to hold `cmd_valid` until acceptance. -/
  | hostPresent (w : Word)
  /-- DEV: choose the bytes of coming reads, the first read first (R32). -/
  | devBytes (bytes : List Byte)
  /-- DEV: choose the answer to a coming data-ready query (R32). -/
  | devReady (b : Bool)
  /-- PLAT: let time pass (R127: it may wait as long as it likes). -/
  | platWait
  /-- OTHER: a bus transaction that sends some bytes and receives some. -/
  | otherBus (sent : List Byte) (received : Nat)
  /-- Reset arrives (R130). -/
  | reset
  deriving DecidableEq, Repr

/-- What one completed command reports (R128). -/
structure Response where
  status      : BitVec 4
  resultValid : Bool
  tempC       : BitVec 32
  tempK       : BitVec 32
  tempF       : BitVec 32
  deriving DecidableEq, Repr

/-- The reasons the machine stops with a fault. -/
inductive Fault where
  /-- R14, R114, X3: `st` holds a value from 14 to 31. Raised by the sequencer's step. Safe: no rule
  reaches such a value. -/
  | unreachableMicroState
  /-- X2: `rsp_status` holds a reserved code, 11 to 15. Raised by the sequencer's step. Safe: no rule
  writes one. -/
  | reservedStatusCode
  deriving DecidableEq, Repr

/-- The reasons a step has no meaning. -/
inductive Refusal where
  /-- An instruction without a meaning yet; raised by `exec`'s arm. Safe. No arm raises it. -/
  | notModelled (mnemonic : String)
  /-- R55: the host presented a reserved word and the sequencer was ready to accept it. Raised by the
  sequencer's step. Safe: nothing follows it. -/
  | reservedCommandWord (why : ReservedWord)
  /-- R127, X17: OTHER was to use the bus while `cs_req = 1`, which the platform must prevent. Raised by
  OTHER's move. Safe: nothing follows it. -/
  | busDutyBroken
  deriving DecidableEq, Repr

/-- The whole state. The first four groups are the sequencer's registers, under their names in R16, R17, R18
and R21 (`fsm_state` and `cmd_ready` are combinational: `State.fsmState`, `State.cmdReady`). -/
structure State where
  /-- The micro-state register, 5 bits (R14). -/
  st : BitVec 5
  /-- The last configuring sequence verified both phases and nothing has undone it (R16). -/
  armed : Bool
  /-- The configuring sequence in progress is a fault retry (R16). -/
  ctx : Bool
  /-- The sequencer holds the critical section (R16). -/
  csReq : Bool
  /-- The stored Configuration exists (R17). -/
  cfgValid : Bool
  cfgMode : BitVec 2
  cfgWires : Byte
  cfgHz : Byte
  /-- Operands of the configuring sequence in progress (R18). -/
  wMode : BitVec 2
  wWires : Byte
  wHz : Byte
  /-- The configuration byte being written and compared (R18). -/
  cfgbyte : Byte
  /-- The configuration byte read back (R18). -/
  rb : Byte
  /-- `dataReady()` returned false in the current READ (R18). -/
  stale : Bool
  /-- The Raw Code Register (R18, R66). -/
  raw : BitVec 16
  /-- The fault-status byte (R18, R67). -/
  fsb : Byte
  /-- The fault status a READ returns after its retry (R18). -/
  pend : BitVec 4
  /-- Output registers (R21). -/
  rspValid : Bool
  rspStatus : BitVec 4
  resultValid : Bool
  tempC : BitVec 32
  tempK : BitVec 32
  tempF : BitVec 32
  /-- The host's input port (R20). -/
  cmdValid : Bool
  cmdWord : Word
  /-- The command word latched at acceptance, until the command completes (R11, R68). -/
  cmd : Option Word
  /-- The boundary history, oldest record first (R31). -/
  history : List Event
  /-- The responses so far, oldest first (R128). -/
  responses : List Response
  /-- The model's own: bytes DEV has chosen for coming reads (R32). -/
  devBytes : List Byte
  /-- The model's own: answers DEV has chosen for coming data-ready queries (R32). -/
  devReadies : List Bool
  /-- The model's own: how many answers the device has given. -/
  draws : Nat
  /-- The model's own: the moves still to come, the next one first; none left means SEQ moves. -/
  agenda : List Move
  deriving DecidableEq, Repr

/-- The machine right after reset (R129), with the host presenting nothing and no move or answer chosen. -/
def State.reset : State where
  st := 0
  armed := false
  ctx := false
  csReq := false
  cfgValid := false
  cfgMode := 0
  cfgWires := 0
  cfgHz := 0
  wMode := 0
  wWires := 0
  wHz := 0
  cfgbyte := 0x00
  rb := 0x00
  stale := false
  raw := 0x0000
  fsb := 0x00
  pend := 0
  rspValid := false
  rspStatus := 0
  resultValid := false
  tempC := 0
  tempK := 0
  tempF := 0
  cmdValid := false
  cmdWord := 0
  cmd := none
  history := []
  responses := []
  devBytes := []
  devReadies := []
  draws := 0
  agenda := []

/-- The device's register map (R28); `threshold` takes the offset 0 to 3 in 0x03 to 0x06. -/
inductive DeviceReg where
  | configuration
  | rtdMsb
  | rtdLsb
  | threshold (k : Fin 4)
  | faultStatus
  deriving DecidableEq, Repr

/-- The bits of the fault-status byte that the source names (R67). -/
inductive FaultBit where
  | rtdHigh | rtdLow | refinHigh | refinLow | rtdinLow
  deriving DecidableEq, Repr

/-- The output ports (R20, R21). -/
structure Ports where
  cmdReady    : Bool
  rspValid    : Bool
  rspStatus   : BitVec 4
  resultValid : Bool
  tempC       : BitVec 32
  tempK       : BitVec 32
  tempF       : BitVec 32
  fsmState    : Option (BitVec 3)
  csReq       : Bool
  deriving DecidableEq, Repr

/-- The result of the conversion engine for a code in range (R102). -/
structure Reading where
  c : Int
  k : Int
  f : Int
  deriving DecidableEq, Repr

end Sys2Proof.Machine
end

