-- ==== Sys2Proof/Machine/Flags.lean ====
section
/-! DEFINITION. Codes of states and statuses, and every flag the sequencer computes: the fault flag (R66), the
fault classification (R90), the stale flag (R87), the verification (R77) and the output flags (R93). -/

namespace Sys2Proof.Machine

/-- The value of `st` for a micro-state (R14). -/
def MicroState.code : MicroState → BitVec 5
  | .idle => 0
  | .cP1CsEnter => 1
  | .cP1Write => 2
  | .cP1Readback => 3
  | .cP1CsLeave => 4
  | .cDelay => 5
  | .cP2CsEnter => 6
  | .cP2Write => 7
  | .cP2Readback => 8
  | .cP2CsLeave => 9
  | .rReady => 10
  | .rCode => 11
  | .rFault => 12
  | .rConvert => 13

/-- The micro-state a value of `st` stands for; none for 14 to 31 (R14). -/
def MicroState.ofCode (c : BitVec 5) : Option MicroState :=
  match c.toNat with
  | 0 => some .idle
  | 1 => some .cP1CsEnter
  | 2 => some .cP1Write
  | 3 => some .cP1Readback
  | 4 => some .cP1CsLeave
  | 5 => some .cDelay
  | 6 => some .cP2CsEnter
  | 7 => some .cP2Write
  | 8 => some .cP2Readback
  | 9 => some .cP2CsLeave
  | 10 => some .rReady
  | 11 => some .rCode
  | 12 => some .rFault
  | 13 => some .rConvert
  | _ => none

/-- A micro-state of the configuring sequence: values 1 to 9 (R15). -/
def MicroState.configuring : MicroState → Bool
  | .cP1CsEnter | .cP1Write | .cP1Readback | .cP1CsLeave | .cDelay => true
  | .cP2CsEnter | .cP2Write | .cP2Readback | .cP2CsLeave => true
  | .idle | .rReady | .rCode | .rFault | .rConvert => false

/-- A micro-state in which the critical section is held (R25 I3). -/
def MicroState.inCriticalSection : MicroState → Bool
  | .cP1Write | .cP1Readback | .cP1CsLeave | .cP2Write | .cP2Readback | .cP2CsLeave => true
  | .idle | .cP1CsEnter | .cDelay | .cP2CsEnter | .rReady | .rCode | .rFault | .rConvert => false

/-- The value of `fsm_state` for a source state (R15). -/
def FsmState.code : FsmState → BitVec 3
  | .unconfigured => 0
  | .armed => 1
  | .configuring => 2
  | .reading => 3
  | .faulted => 4

/-- The status codes (R58). -/
def Status.code : Status → BitVec 4
  | .ok => 0
  | .oldReading => 1
  | .wireInputError => 2
  | .hzInputError => 3
  | .modeInputError => 4
  | .errorPreconfiguring => 5
  | .errorConfiguring => 6
  | .brokenRtdWire => 7
  | .circuitMalfunction => 8
  | .unknownError => 9
  | .outOfRange => 10

/-- The status a code stands for; none for the reserved codes 11 to 15 (R58). -/
def Status.ofCode (c : BitVec 4) : Option Status :=
  match c.toNat with
  | 0 => some .ok
  | 1 => some .oldReading
  | 2 => some .wireInputError
  | 3 => some .hzInputError
  | 4 => some .modeInputError
  | 5 => some .errorPreconfiguring
  | 6 => some .errorConfiguring
  | 7 => some .brokenRtdWire
  | 8 => some .circuitMalfunction
  | 9 => some .unknownError
  | 10 => some .outOfRange
  | _ => none

/-- A status that carries a temperature (R58's `result_valid` column, R93, C1). -/
def Status.hasResult : Status → Bool
  | .ok | .oldReading => true
  | .wireInputError | .hzInputError | .modeInputError | .errorPreconfiguring | .errorConfiguring
  | .brokenRtdWire | .circuitMalfunction | .unknownError | .outOfRange => false

/-- A device-fault status (R58). -/
def Status.isDeviceFault : Status → Bool
  | .brokenRtdWire | .circuitMalfunction | .unknownError => true
  | .ok | .oldReading | .wireInputError | .hzInputError | .modeInputError | .errorPreconfiguring
  | .errorConfiguring | .outOfRange => false

/-- The fault flag `raw[15:15]` (R66). -/
def faultFlag (raw : BitVec 16) : Bool := raw.getLsbD 15

/-- The raw code `raw[14:0]` (R66, R103). -/
def rawCode (raw : BitVec 16) : Code := raw.extractLsb' 0 15

/-- The code register from its two bytes, MSB first (R34). -/
def assembleCode (msb lsb : Byte) : BitVec 16 := msb ++ lsb

/-- `stale` from the data-ready answer (R87). -/
def staleOf (ready : Bool) : Bool := !ready

/-- The status of a READ whose code is in range (R92, R94). -/
def readingStatus (stale : Bool) : Status := if stale then .oldReading else .ok

/-- The verification fails when the two bytes differ in any bit; no bit is masked (R77). -/
def mismatch (rb cfgbyte : Byte) : Bool := rb != cfgbyte

/-- The fault classification of R90, its rows in the source's priority order. -/
def classify (fs : Byte) : Status :=
  if fs &&& 0xF8 ≠ 0 then .brokenRtdWire
  else if fs &&& 0x07 ≠ 0 then .circuitMalfunction
  else .unknownError

/-- The bit positions of the named fault bits (R67); labels only, no rule reads them. -/
def FaultBit.position : FaultBit → Nat
  | .rtdHigh => 7
  | .rtdLow => 6
  | .refinHigh => 5
  | .refinLow => 4
  | .rtdinLow => 3

/-- The micro-state `st` holds (R14). -/
def State.micro (s : State) : Option MicroState := MicroState.ofCode s.st

/-- The source state, combinational from `st` and `armed` (R15). For a value of `st` that no rule writes,
R15 gives no state, and the machine faults (R14). -/
def State.fsmState (s : State) : Option FsmState :=
  match s.micro with
  | none => none
  | some .idle => some (if s.armed then .armed else .unconfigured)
  | some .cP1CsEnter | some .cP1Write | some .cP1Readback | some .cP1CsLeave | some .cDelay
  | some .cP2CsEnter | some .cP2Write | some .cP2Readback | some .cP2CsLeave => some .configuring
  | some .rReady | some .rCode | some .rConvert => some .reading
  | some .rFault => some .faulted

/-- `cmd_ready` is 1 exactly when `st = IDLE` (R20). -/
def State.cmdReady (s : State) : Bool := s.st == MicroState.code .idle

/-- What the host and the platform see (R20, R21). -/
def State.ports (s : State) : Ports where
  cmdReady := s.cmdReady
  rspValid := s.rspValid
  rspStatus := s.rspStatus
  resultValid := s.resultValid
  tempC := s.tempC
  tempK := s.tempK
  tempF := s.tempF
  fsmState := s.fsmState.map FsmState.code
  csReq := s.csReq

end Sys2Proof.Machine
end

