-- ==== Sys2Proof/Machine/Operands.lean ====
section
/-! DEFINITION. The operands of START: their validation (R70) and the configuration bytes made of them
(R59 to R65). -/

namespace Sys2Proof.Machine

/-- Wire counts 2, 3 and 4 are valid (R52). -/
abbrev WiresValid (wires : Nat) : Prop := wires = 2 ∨ wires = 3 ∨ wires = 4

/-- Line frequencies 50 and 60 are valid (R53). -/
abbrev HzValid (hz : Nat) : Prop := hz = 50 ∨ hz = 60

/-- MODE 0 (ONESHOT) and 1 (AUTOMATIC) are modes (R51). -/
abbrev ModeValid (mode : Nat) : Prop := mode = 0 ∨ mode = 1

/-- START operand validation in the order WIRES, HZ, MODE (R70, R115, D8); none when all three are valid. -/
def inputError (mode wires hz : Nat) : Option Status :=
  if ¬ WiresValid wires then some .wireInputError
  else if ¬ HzValid hz then some .hzInputError
  else if ¬ ModeValid mode then some .modeInputError
  else none

/-- The wiring-mode bit, bit 4 (R60, D10). -/
def wiringBits (wires : Byte) : Byte := if wires = 3 then 0x10 else 0x00

/-- The filter-frequency bit, bit 0 (R61, D11). -/
def filterBits (hz : Byte) : Byte := if hz = 50 then 0x01 else 0x00

/-- The one-shot and continuous bits of the mode-arm phase, bits 5 and 6 (R62, D13). -/
def modeBits (mode : BitVec 2) : Byte := if mode = 0 then 0x20 else 0x40

/-- The bias-phase byte (R63). -/
def cfgPhase1 (wires hz : Byte) : Byte := 0x80 ||| 0x02 ||| wiringBits wires ||| filterBits hz

/-- The mode-arm byte (R64). -/
def cfgPhase2 (mode : BitVec 2) (wires hz : Byte) : Byte := cfgPhase1 wires hz ||| modeBits mode

/-- Field accessors of the configuration byte (R59). -/
def cfgFilter (b : Byte) : Bool := b.getLsbD 0
def cfgFaultClear (b : Byte) : Bool := b.getLsbD 1
def cfgFaultCycle (b : Byte) : BitVec 2 := b.extractLsb' 2 2
def cfgWiring (b : Byte) : Bool := b.getLsbD 4
def cfgOneShot (b : Byte) : Bool := b.getLsbD 5
def cfgContinuous (b : Byte) : Bool := b.getLsbD 6
def cfgBias (b : Byte) : Bool := b.getLsbD 7

end Sys2Proof.Machine
end

