-- ==== Sys2Proof/Machine/Ops.lean ====
section
/-! DEFINITION. The named operations of the sequencer: boundary events (R30, R31), draws (R32), accepting a
command (R68), completing one (R83, R93), entering the configuring sequence (R72, R89), the fault path and its
return (R116, R117), and reset (R129, R130). -/

namespace Sys2Proof.Machine

/-! ### Device registers and transport -/

/-- The read address of a device register (R28). -/
def DeviceReg.readAddress : DeviceReg → Byte
  | .configuration => 0x00
  | .rtdMsb => 0x01
  | .rtdLsb => 0x02
  | .threshold k => 0x03 + BitVec.ofNat 8 k.val
  | .faultStatus => 0x07

/-- The address byte of a write to register `a`: bit 7 set (R27, R30). -/
def writeAddressByte (a : Byte) : Byte := 0x80 ||| a

/-- The write address of a device register; none for a read-only one (R28). -/
def DeviceReg.writeAddress : DeviceReg → Option Byte
  | .configuration => some (writeAddressByte 0x00)
  | .threshold k => some (writeAddressByte (0x03 + BitVec.ofNat 8 k.val))
  | .rtdMsb | .rtdLsb | .faultStatus => none

/-- The transport calls of a boundary event, in order (R30, R31). -/
def Event.transport : Event → List TransportCall
  | .busWr a v => [.transmit [writeAddressByte a, v]]
  | .busRd a n _ => [.transmit [a], .receive n]
  | .rdy _ => [.dataReady]
  | .dly ms => [.delayMilliseconds ms]
  | .csE => [.enterCriticalSection]
  | .csL => [.leaveCriticalSection]

/-! ### Draws -/

/-- The next byte the device answers: the first it has chosen, else a free value (R32). -/
def State.devByte (s : State) : Byte :=
  match s.devBytes with
  | b :: _ => b
  | [] => Config.drawByte s.draws

/-- The next data-ready answer: the first the device has chosen, else a free value (R32). -/
def State.devReady (s : State) : Bool :=
  match s.devReadies with
  | b :: _ => b
  | [] => Config.drawReady s.draws

/-- The state after one byte was drawn. -/
def State.popByte (s : State) : State :=
  { s with devBytes := s.devBytes.tail, draws := s.draws + 1 }

/-- The state after one data-ready answer was drawn. -/
def State.popReady (s : State) : State :=
  { s with devReadies := s.devReadies.tail, draws := s.draws + 1 }

/-! ### Boundary events -/

/-- Add a record to the history (R31). -/
def State.record (s : State) (e : Event) : State := { s with history := s.history ++ [e] }

/-- `MemWrite(a, 1, v)` (R30). -/
def memWrite (a v : Byte) (s : State) : State := s.record (.busWr a v)

/-- `MemRead(a, 1)`: the byte is `s.devByte`; this is the state after it (R30, R32). -/
def memRead1 (a : Byte) (s : State) : State := s.popByte.record (.busRd a 1 [s.devByte])

/-- `MemRead(a, 2)`: the bytes are `s.devByte` and then `s.popByte.devByte`; this is the state after it
(R30, R32). -/
def memRead2 (a : Byte) (s : State) : State :=
  s.popByte.popByte.record (.busRd a 2 [s.devByte, s.popByte.devByte])

/-- `Ready()`: the answer is `s.devReady`; this is the state after it (R31, R32). -/
def readyQuery (s : State) : State := s.popReady.record (.rdy s.devReady)

/-- `Delay(n)` (R31); it always returns (R33). -/
def delay (ms : Nat) (s : State) : State := s.record (.dly ms)

/-- `CsEnter()` with `cs_req <- 1` (R73, R79). -/
def csEnter (s : State) : State := { s.record .csE with csReq := true }

/-- `CsLeave()` with `cs_req <- 0` (R76, R82). -/
def csLeave (s : State) : State := { s.record .csL with csReq := false }

/-! ### Control -/

/-- `st <- m` (R8). -/
def State.goto (s : State) (m : MicroState) : State := { s with st := m.code }

/-- `cfgbyte <- b` (R73, R78). -/
def State.setCfgbyte (s : State) (b : Byte) : State := { s with cfgbyte := b }

/-- `rb <- b` (R75, R81). -/
def State.setRb (s : State) (b : Byte) : State := { s with rb := b }

/-- `stale <- b` (R87). -/
def State.setStale (s : State) (b : Bool) : State := { s with stale := b }

/-- `raw <- v` (R88). -/
def State.setRaw (s : State) (v : BitVec 16) : State := { s with raw := v }

/-- `ctx <- 0` (R83). -/
def State.clearCtx (s : State) : State := { s with ctx := false }

/-- `fsb <- fs` and `pend <- classify(fs)` (R89). -/
def State.saveFault (s : State) (fs : Byte) : State := { s with fsb := fs, pend := (classify fs).code }

/-- The acceptance of the word on the port: it is latched and leaves the port (R68, R11). -/
def takeCommand (s : State) : State := { s with cmdValid := false, cmd := some s.cmdWord }

/-- What acceptance does before the command's own effect (R68). -/
def clearResponse (s : State) : State := { s with rspValid := false, resultValid := false }

/-- Complete the command with a status code (R83, R93): the output registers, the response of R128, and the
way back to `IDLE`. -/
def complete (status : BitVec 4) (resultValid : Bool) (s : State) : State :=
  { s with
    rspStatus := status
    rspValid := true
    resultValid := resultValid
    st := MicroState.code .idle
    cmd := none
    responses := s.responses ++ [⟨status, resultValid, s.tempC, s.tempK, s.tempF⟩] }

/-- `respond(s)` for a START and at the end of any configuring sequence (R83). In a fault retry it is the
return from the fault path: it reports `pend` and clears `ctx` (R117). -/
def respondConfiguring (x : Status) (s : State) : State :=
  (complete (if s.ctx then s.pend else x.code) false s).clearCtx

/-- `respond(s)` for a READ that does not end in a configuring sequence (R93). -/
def respondRead (x : Status) (s : State) : State := complete x.code x.hasResult s

/-- Enter the configuring sequence with the given operands: from a START with `retry = false` (R72), from the
fault path with `retry = true` (R89). -/
def enterConfiguring (mode : BitVec 2) (wires hz : Byte) (retry : Bool) (s : State) : State :=
  { s with
    wMode := mode
    wWires := wires
    wHz := hz
    ctx := retry
    armed := false
    st := MicroState.code .cP1CsEnter }

/-- The fault path as a trap, once the fault-status byte `fs` is read (R89, R116): it saves `fs` in `fsb` and
its class in `pend`; with a stored Configuration it loads that as operands and goes to `C_P1_CSENTER`, without
one it completes the READ. -/
def takeFault (fs : Byte) (s : State) : State :=
  if s.cfgValid then enterConfiguring s.cfgMode s.cfgWires s.cfgHz true (s.saveFault fs)
  else respondRead (classify fs) (s.saveFault fs)

/-- Commit the operands of a verified configuring sequence (R82). -/
def commitConfiguration (s : State) : State :=
  { s with
    cfgMode := s.wMode
    cfgWires := s.wWires
    cfgHz := s.wHz
    cfgValid := true
    armed := true }

/-- Reset arriving at `s` (R129, R130): every register of the sequencer takes its reset value, the command in
progress is abandoned without a response and no event is recorded; the host's port, the history and the other
agents' choices are not the sequencer's and stay. -/
def applyReset (s : State) : State :=
  { State.reset with
    cmdValid := s.cmdValid
    cmdWord := s.cmdWord
    history := s.history
    responses := s.responses
    devBytes := s.devBytes
    devReadies := s.devReadies
    draws := s.draws
    agenda := s.agenda }

end Sys2Proof.Machine
end

