-- ==== Sys2Proof/Machine/Configure.lean ====
section
/-! DEFINITION. The configuring sequence, one definition per micro-state (R73 to R82). It runs for a START and
for the fault retry of a READ. -/

namespace Sys2Proof.Machine

/-- `C_P1_CSENTER` (R73). -/
def cP1CsEnter (s : State) : State :=
  ((csEnter s).setCfgbyte (cfgPhase1 s.wWires s.wHz)).goto .cP1Write

/-- `C_P1_WRITE` (R74). -/
def cP1Write (s : State) : State :=
  (memWrite (DeviceReg.readAddress .configuration) s.cfgbyte s).goto .cP1Readback

/-- `C_P1_READBACK` (R75). -/
def cP1Readback (s : State) : State :=
  ((memRead1 (DeviceReg.readAddress .configuration) s).setRb s.devByte).goto .cP1CsLeave

/-- `C_P1_CSLEAVE` (R76): the critical section is left before the comparison is reported. -/
def cP1CsLeave (s : State) : State :=
  if mismatch s.rb s.cfgbyte then respondConfiguring .errorPreconfiguring (csLeave s)
  else (csLeave s).goto .cDelay

/-- `C_DELAY` (R78). -/
def cDelay (s : State) : State :=
  ((delay Config.settleMs s).setCfgbyte (cfgPhase2 s.wMode s.wWires s.wHz)).goto .cP2CsEnter

/-- `C_P2_CSENTER` (R79). -/
def cP2CsEnter (s : State) : State := (csEnter s).goto .cP2Write

/-- `C_P2_WRITE` (R80). -/
def cP2Write (s : State) : State :=
  (memWrite (DeviceReg.readAddress .configuration) s.cfgbyte s).goto .cP2Readback

/-- `C_P2_READBACK` (R81). -/
def cP2Readback (s : State) : State :=
  ((memRead1 (DeviceReg.readAddress .configuration) s).setRb s.devByte).goto .cP2CsLeave

/-- `C_P2_CSLEAVE` (R82): on success the operands become the stored Configuration. -/
def cP2CsLeave (s : State) : State :=
  if mismatch s.rb s.cfgbyte then respondConfiguring .errorConfiguring (csLeave s)
  else respondConfiguring .ok (commitConfiguration (csLeave s))

end Sys2Proof.Machine
end

