-- ==== Sys2Proof/Machine/Convert.lean ====
section
/-! DEFINITION. The conversion engine (R102 to R109). -/

namespace Sys2Proof.Machine

/-- The table index of a code, computed exactly; none when it is out of range (R104). -/
def tableIndex (code : Code) : Option (Fin Config.table.len) :=
  let idx : Int := (code.toNat : Int) - (Config.minCode : Int)
  if h : 0 ≤ idx ∧ idx < (Config.table.len : Int) then some ⟨idx.toNat, by omega⟩ else none

/-- Kelvin in hundredths from Celsius in hundredths (R106). -/
def kelvinOf (c : Int) : Int := c + 27315

/-- Fahrenheit in thousandths from Celsius in hundredths (R107). -/
def fahrenheitOf (c : Int) : Int := 18 * c + 32000

/-- The conversion engine (R102); none when the code is out of range, and then no entry is read (R104). -/
def convert (code : Code) : Option Reading :=
  match tableIndex code with
  | none => none
  | some i =>
    let c := (Config.table.entry i).toInt
    some ⟨c, kelvinOf c, fahrenheitOf c⟩

/-- Write the three temperatures (R92), each 32 bits two's complement (R108: they fit). -/
def writeReading (r : Reading) (s : State) : State :=
  { s with
    tempC := BitVec.ofInt 32 r.c
    tempK := BitVec.ofInt 32 r.k
    tempF := BitVec.ofInt 32 r.f }

end Sys2Proof.Machine
end

