-- ==== Sys2Proof/Machine/Read.lean ====
section
/-! DEFINITION. READ: its acceptance step (R86) and its micro-states (R87, R88, R89, R92). -/

namespace Sys2Proof.Machine

/-- READ (R86): the acceptance step, which goes to `R_READY` in every idle state (R95). While `st ≠ IDLE` the
command is not accepted and has no effect: the host holds the word (R68). -/
def execRead (s : State) : Host.Outcome State Fault Refusal :=
  if s.cmdReady then .next ((clearResponse s).goto .rReady) else .next s

/-- `R_READY` (R87). -/
def rReady (s : State) : State :=
  ((readyQuery s).setStale (staleOf s.devReady)).goto .rCode

/-- `R_CODE` (R88): the two bytes come from one transaction, the MSB first. -/
def rCode (s : State) : State :=
  let raw := assembleCode s.devByte s.popByte.devByte
  ((memRead2 (DeviceReg.readAddress .rtdMsb) s).setRaw raw).goto
    (if faultFlag raw then .rFault else .rConvert)

/-- `R_FAULT` (R89). -/
def rFault (s : State) : State :=
  takeFault s.devByte (memRead1 (DeviceReg.readAddress .faultStatus) s)

/-- `R_CONVERT` (R92). -/
def rConvert (s : State) : State :=
  match convert (rawCode s.raw) with
  | none => respondRead .outOfRange s
  | some r => respondRead (readingStatus s.stale) (writeReading r s)

end Sys2Proof.Machine
end

