-- ==== Sys2Proof/Machine/Start.lean ====
section
/-! DEFINITION. START: its acceptance step (R68 to R72). The configuring sequence it enters is in
Machine/Configure.lean, one micro-state a step. -/

namespace Sys2Proof.Machine

/-- START (R69): the acceptance step. An invalid operand completes the command at once with its input error
and no other effect (R70, R71); valid operands enter the configuring sequence (R72). While `st ≠ IDLE` the
command is not accepted and has no effect: the host holds the word (R68). -/
def execStart (mode wires hz : Nat) (s : State) : Host.Outcome State Fault Refusal :=
  if s.cmdReady then
    match inputError mode wires hz with
    | some e => .next (respondConfiguring e (clearResponse s))
    | none =>
      .next (enterConfiguring (BitVec.ofNat 2 mode) (BitVec.ofNat 8 wires) (BitVec.ofNat 8 hz) false
        (clearResponse s))
  else .next s

end Sys2Proof.Machine
end

