-- ==== Sys2Proof/Machine/Dispatch.lean ====
section
/-! DEFINITION. The one match from commands to their meanings. -/

namespace Sys2Proof.Machine

def exec (i : Instr) (s : State) : Host.Outcome State Fault Refusal :=
  match i with
  | .start mode wires hz => Sys2Proof.Machine.execStart mode wires hz s
  | .read => Sys2Proof.Machine.execRead s

end Sys2Proof.Machine
end

