-- ==== Sys2Proof/Machine/Sequencer.lean ====
section
/-! DEFINITION. What each agent's move does (R5, R127): the sequencer's own step (R4, R14, R68) and the moves of
the others. -/

namespace Sys2Proof.Machine

/-- The step of a micro-state other than `IDLE` (the step rules of R14's table). -/
def microStep (m : MicroState) (s : State) : State :=
  match m with
  | .idle => s
  | .cP1CsEnter => cP1CsEnter s
  | .cP1Write => cP1Write s
  | .cP1Readback => cP1Readback s
  | .cP1CsLeave => cP1CsLeave s
  | .cDelay => cDelay s
  | .cP2CsEnter => cP2CsEnter s
  | .cP2Write => cP2Write s
  | .cP2Readback => cP2Readback s
  | .cP2CsLeave => cP2CsLeave s
  | .rReady => rReady s
  | .rCode => rCode s
  | .rFault => rFault s
  | .rConvert => rConvert s

/-- The step in `IDLE` (R68): a presented command is latched and executed, a reserved word is refused by name
(R55); with nothing presented the sequencer has no step and nothing changes. -/
def idleStep (s : State) : Host.Outcome State Fault Refusal :=
  if s.cmdValid then
    match decode s.cmdWord with
    | .command i => exec i (takeCommand s)
    | .reserved why => .refused (.reservedCommandWord why)
  else .next s

/-- One step of the sequencer. The two faults are those of R14 and X2. -/
def seqStep (s : State) : Host.Outcome State Fault Refusal :=
  match Status.ofCode s.rspStatus, s.micro with
  | none, _ => .fault .reservedStatusCode
  | some _, none => .fault .unreachableMicroState
  | some _, some .idle => idleStep s
  | some _, some m => .next (microStep m s)

/-- The agent that makes a move; reset belongs to none of the five. -/
def Move.agent : Move → Option Agent
  | .seq => some .seq
  | .hostPresent _ => some .host
  | .devBytes _ | .devReady _ => some .dev
  | .platWait => some .plat
  | .otherBus _ _ => some .other
  | .reset => none

/-- HOST presents a word on the command port (R20, R127). -/
def hostPresents (w : Word) (s : State) : State := { s with cmdValid := true, cmdWord := w }

/-- DEV chooses the bytes of coming reads (R32). -/
def devChoosesBytes (bytes : List Byte) (s : State) : State := { s with devBytes := s.devBytes ++ bytes }

/-- DEV chooses the answer to a coming data-ready query (R32). -/
def devChoosesReady (b : Bool) (s : State) : State := { s with devReadies := s.devReadies ++ [b] }

/-- The effect of one move (R127). OTHER's transaction touches nothing the sequencer holds, and what it does to
the device shows only in the device's answers, which are draws (R24, R32); it has no move while `cs_req = 1`
(R42). -/
def act (m : Move) (s : State) : Host.Outcome State Fault Refusal :=
  match m with
  | .seq => seqStep s
  | .hostPresent w => .next (hostPresents w s)
  | .devBytes bytes => .next (devChoosesBytes bytes s)
  | .devReady b => .next (devChoosesReady b s)
  | .platWait => .next s
  | .otherBus _ _ => if s.csReq then .refused .busDutyBroken else .next s
  | .reset => .next (applyReset s)

/-- The move that comes next: the agenda's first, and the sequencer's own step when none is left. -/
def nextMove (s : State) : Move := s.agenda.headD .seq

/-- The state the next move starts from: the move is taken off the agenda. -/
def takeMove (s : State) : State := { s with agenda := s.agenda.tail }

/-- Present a command word so that the next move is the sequencer's acceptance of it. -/
def presentWord (w : Word) (s : State) : State :=
  { s with agenda := [], st := MicroState.code .idle, cmdValid := true, cmdWord := w }

/-- The command word with the given bits, as spec/opcode_table.json numbers them. -/
def wordOfBits (nbits w : Nat) : Word := BitVec.ofNat 32 (w % 2 ^ nbits)

end Sys2Proof.Machine
end

