-- ==== Sys2Proof/Machine/Step.lean ====
section
/-! DEFINITION. One step of the machine, and the placing of a command word where the next step takes it. -/

namespace Sys2Proof.Machine

/-- One step: the next move is made. With an empty agenda it is one step of the sequencer (R4). -/
def step (s : State) : Host.Outcome State Fault Refusal := act (nextMove s) (takeMove s)

/-- `s` with a command on the host's port, the sequencer idle and the next move its own, so that the next step
accepts exactly that command. -/
def State.withFetchWord (s : State) (nbits w : Nat) : State := presentWord (wordOfBits nbits w) s

end Sys2Proof.Machine
end

