-- ==== Sys2Proof/Machine/Assembler.lean ====
section
/-! DEFINITION. The assembler syntax of a command (R57): reading one line of it, and writing one. -/

namespace Sys2Proof.Machine

/-- What a line consists of: words and commas. -/
abbrev AsmToken := Option (List Char)

/-- A comment starts with `;` and runs to the end of the line (R57). -/
def stripComment : List Char → List Char
  | [] => []
  | c :: cs => if c = ';' then [] else c :: stripComment cs

/-- The word collected so far, if there is one. -/
def asmWord (collected : List Char) : List AsmToken :=
  if collected.isEmpty then [] else [some collected.reverse]

/-- Split a line at blanks and commas; a comma is a token of its own, `none`. -/
def asmTokens : List Char → List Char → List AsmToken
  | [], cur => asmWord cur
  | c :: cs, cur =>
    if c = ',' then asmWord cur ++ none :: asmTokens cs []
    else if c = ' ' || c = '\t' then asmWord cur ++ asmTokens cs []
    else asmTokens cs (c :: cur)

/-- A non-empty decimal number. -/
def asmDecimal (digits : List Char) : Option Nat :=
  if digits.isEmpty || !digits.all Char.isDigit then none
  else some (digits.foldl (fun n c => 10 * n + (c.toNat - '0'.toNat)) 0)

/-- A decimal number not above `max`. -/
def asmNumber (max : Nat) (digits : List Char) : Option Nat :=
  match asmDecimal digits with
  | some n => if n ≤ max then some n else none
  | none => none

/-- `ONESHOT`, `AUTOMATIC` or `MODE(<n>)` (R57). -/
def asmMode (word : List Char) : Option Nat :=
  if word = "ONESHOT".toList then some 0
  else if word = "AUTOMATIC".toList then some 1
  else if word.take 5 = "MODE(".toList ∧ word.getLast? = some ')' then
    asmNumber 3 (word.drop 5).dropLast
  else none

/-- One line of assembler text as a command (R57); none for a line that is no command. -/
def assembleLine (line : List Char) : Option Instr :=
  match asmTokens (stripComment line) [] with
  | [some op] => if op = "READ".toList then some .read else none
  | [some op, some mode, none, some wires, none, some hz] =>
    if op = "START".toList then
      match asmMode mode, asmNumber 255 wires, asmNumber 255 hz with
      | some m, some w, some h => some (.start m w h)
      | _, _, _ => none
    else none
  | _ => none

/-- A mode as assembler text (R57). -/
def modeText (mode : Nat) : List Char :=
  if mode = 0 then "ONESHOT".toList
  else if mode = 1 then "AUTOMATIC".toList
  else "MODE(".toList ++ Nat.toDigits 10 mode ++ [')']

/-- A command as assembler text (R57). -/
def assemblerText : Instr → List Char
  | .start mode wires hz =>
    "START ".toList ++ modeText mode ++ ", ".toList ++ Nat.toDigits 10 wires ++ ", ".toList ++ Nat.toDigits 10 hz
  | .read => "READ".toList

end Sys2Proof.Machine
end

