-- ==== Sys2Proof/Safety.lean ====
section
/-! DEFINITION. The terms claims about the sequencer use: the invariants of R25, what a run shows (R128), the
device premise of 95_test_vectors.md, and the two commands as whole runs (R69, R86). -/

namespace Sys2Proof.Safety

open Sys2Proof.Machine

/-! ### Invariants -/

/-- A legal acquisition mode, wire count and line frequency (R17, R25 I2 and I8). -/
def LegalOperands (mode : BitVec 2) (wires hz : Byte) : Prop :=
  (mode = 0 ∨ mode = 1) ∧ (wires = 2 ∨ wires = 3 ∨ wires = 4) ∧ (hz = 50 ∨ hz = 60)

/-- A code of one of the three device-fault statuses (R25 I7). -/
def FaultCode (c : BitVec 4) : Prop :=
  c = Status.brokenRtdWire.code ∨ c = Status.circuitMalfunction.code ∨ c = Status.unknownError.code

/-- The invariants I1 to I8 of R25, with what R14 and R58 say of `st` and `rsp_status`. -/
structure MachineInv (s : State) : Prop where
  /-- R14: `st` holds no value from 14 to 31. -/
  st_legal : s.micro ≠ none
  /-- R58: `rsp_status` holds no reserved code. -/
  status_legal : Status.ofCode s.rspStatus ≠ none
  armed_valid : s.armed = true → s.cfgValid = true
  cfg_legal : s.cfgValid = true → LegalOperands s.cfgMode s.cfgWires s.cfgHz
  cs_req : s.csReq = true ↔ ∃ m, s.micro = some m ∧ m.inCriticalSection = true
  idle_clear : s.micro = some .idle → s.csReq = false ∧ s.ctx = false
  busy_silent : s.micro ≠ some .idle → s.rspValid = false ∧ s.resultValid = false
  result_status : s.resultValid = true →
    s.rspValid = true ∧ (s.rspStatus = Status.ok.code ∨ s.rspStatus = Status.oldReading.code)
  retry_fault : s.ctx = true →
    (∃ m, s.micro = some m ∧ m.configuring = true) ∧ FaultCode s.pend
  operands_legal : ∀ m, s.micro = some m → m.configuring = true → LegalOperands s.wMode s.wWires s.wHz

/-- The last configuring sequence verified, and the stored Configuration equals its operands (R25 I9). -/
def LastVerified (s : State) : Prop :=
  s.armed = true ∧ s.cfgValid = true ∧ s.rb = s.cfgbyte ∧ s.cfgbyte = cfgPhase2 s.wMode s.wWires s.wHz ∧
    s.cfgMode = s.wMode ∧ s.cfgWires = s.wWires ∧ s.cfgHz = s.wHz

/-- The last configuring sequence ended in a verification failure of its bias or mode-arm phase (R25 I9). -/
def LastFailed (s : State) : Prop :=
  s.armed = false ∧ s.rb ≠ s.cfgbyte ∧
    (s.cfgbyte = cfgPhase1 s.wWires s.wHz ∨ s.cfgbyte = cfgPhase2 s.wMode s.wWires s.wHz)

/-- No configuring sequence has run since reset (R25 I9). -/
def NoneRun (s : State) : Prop :=
  s.armed = false ∧ s.cfgValid = false ∧ s.rb = 0x00 ∧ s.cfgbyte = 0x00

/-- The invariant I9 of R25 for every micro-state: outside a configuring sequence one of its three cases holds,
and inside one the configuration byte is that of the phase being run and nothing is armed (R73, R78, R72). -/
structure SequenceInv (s : State) : Prop where
  outside : ∀ m, s.micro = some m → m.configuring = false → LastVerified s ∨ LastFailed s ∨ NoneRun s
  disarmed : ∀ m, s.micro = some m → m.configuring = true → s.armed = false
  biasByte : (s.micro = some .cP1Write ∨ s.micro = some .cP1Readback ∨ s.micro = some .cP1CsLeave) →
    s.cfgbyte = cfgPhase1 s.wWires s.wHz
  armByte : (s.micro = some .cP2CsEnter ∨ s.micro = some .cP2Write ∨ s.micro = some .cP2Readback ∨
      s.micro = some .cP2CsLeave) → s.cfgbyte = cfgPhase2 s.wMode s.wWires s.wHz

/-- The command in progress is the one latched at acceptance (R11, R68): none in `IDLE`; a START while its own
configuring sequence runs, with the operands it loaded; a READ otherwise. -/
structure CommandInv (s : State) : Prop where
  idle : s.micro = some .idle → s.cmd = none
  start : ∀ m, s.micro = some m → m.configuring = true → s.ctx = false →
    ∃ w mode wires hz, s.cmd = some w ∧ decode w = .command (.start mode wires hz) ∧
      s.wMode = BitVec.ofNat 2 mode ∧ s.wWires = BitVec.ofNat 8 wires ∧ s.wHz = BitVec.ofNat 8 hz
  read : ∀ m, s.micro = some m → m ≠ .idle → (m.configuring = false ∨ s.ctx = true) →
    ∃ w, s.cmd = some w ∧ decode w = .command .read

/-- A record the sequencer can leave (R29, R31): the configuration register is written and read back one byte at
a time, the code register is read as two bytes from 0x01, the fault-status register as one byte from 0x07, and
the only delay is `SETTLE_MS`. -/
def SequencerEvent : Event → Prop
  | .busWr a _ => a = 0x00
  | .busRd a n bytes =>
    bytes.length = n ∧ ((a = 0x00 ∧ n = 1) ∨ (a = 0x01 ∧ n = 2) ∨ (a = 0x07 ∧ n = 1))
  | .dly ms => ms = Config.settleMs
  | .rdy _ | .csE | .csL => True

/-- Every record of the history is one the sequencer can leave (R29). -/
def HistoryInv (s : State) : Prop := ∀ e ∈ s.history, SequencerEvent e

/-! ### What a run shows -/

/-- A run has ended (R128): the sequencer is idle, no command waits and the host presents no further one. -/
def Ended (s : State) : Prop :=
  s.micro = some .idle ∧ s.cmdValid = false ∧ ∀ m ∈ s.agenda, ∀ w, m ≠ .hostPresent w

/-- The observation of a run (R128). -/
structure Observation where
  responses : List Response
  fsmState  : Option FsmState
  cfgValid  : Bool
  cfgMode   : BitVec 2
  cfgWires  : Byte
  cfgHz     : Byte
  history   : List Event
  deriving DecidableEq, Repr

/-- What a run that ended in `s` shows (R128). -/
def observation (s : State) : Observation where
  responses := s.responses
  fsmState := s.fsmState
  cfgValid := s.cfgValid
  cfgMode := s.cfgMode
  cfgWires := s.cfgWires
  cfgHz := s.cfgHz
  history := s.history

/-- Premise ECHO of 95_test_vectors.md on a stretch of history, `last` being the byte last written to the
configuration register before it: every configuration read-back returns the byte last written. It is a premise
about the device, not a rule. -/
def echoes : Option Byte → List Event → Bool
  | _, [] => true
  | last, .busWr a v :: rest => echoes (if a = 0x00 then some v else last) rest
  | last, .busRd a n bytes :: rest =>
    (match last with
      | some v => if a = 0x00 ∧ n = 1 then bytes == [v] else true
      | none => true) && echoes last rest
  | last, Event.rdy _ :: rest | last, Event.dly _ :: rest => echoes last rest
  | last, Event.csE :: rest | last, Event.csL :: rest => echoes last rest

/-! ### The commands as whole runs -/

/-- `k` steps of the machine, stopping at the first fault or refusal. -/
def runSteps : Nat → State → Host.Outcome State Fault Refusal
  | 0, s => .next s
  | k + 1, s =>
    match step s with
    | .next t => runSteps k t
    | .fault r => .fault r
    | .refused r => .refused r

/-- The sequencer is at micro-state `m` and its own step comes next, whatever moves stand behind it: what a step
rule of R68 to R92 asks for. -/
structure At (s : State) (m : MicroState) : Prop where
  micro : s.micro = some m
  status_legal : Status.ofCode s.rspStatus ≠ none
  own_move : nextMove s = .seq

/-- A command waits on the port of an idle sequencer (R68), and no other agent moves while it runs: the agenda is
empty, so every step of the run is the sequencer's. -/
structure Awaits (s : State) (i : Instr) : Prop where
  idle : s.micro = some .idle
  not_retry : s.ctx = false
  status_legal : Status.ofCode s.rspStatus ≠ none
  undisturbed : s.agenda = []
  presented : s.cmdValid = true
  word : decode s.cmdWord = .command i

/-- The history of one write-and-verify phase (R84): byte `c` written, byte `r` read back. -/
def phaseEvents (c r : Byte) : List Event := [.csE, .busWr 0x00 c, .busRd 0x00 1 [r], .csL]

/-- The state after a phase whose byte is `c` has been written and read back and the critical section left. -/
def afterPhase (c : Byte) (s : State) : State :=
  { s.popByte with
    cfgbyte := c
    rb := s.devByte
    csReq := false
    history := s.history ++ phaseEvents c s.devByte }

/-- The configuring sequence as R69 writes it out, from its operands in `w_*` to its response. -/
def configuringRun (s : State) : State :=
  let c1 := cfgPhase1 s.wWires s.wHz
  let c2 := cfgPhase2 s.wMode s.wWires s.wHz
  let s1 := afterPhase c1 s
  let s2 := afterPhase c2 (s1.record (.dly Config.settleMs))
  if s1.rb ≠ c1 then respondConfiguring .errorPreconfiguring s1
  else if s2.rb ≠ c2 then respondConfiguring .errorConfiguring s2
  else respondConfiguring .ok (commitConfiguration s2)

/-- START as R69 writes the whole command out, from the state in which its word waits. -/
def startRun (mode wires hz : Nat) (s : State) : State :=
  let s0 := clearResponse (takeCommand s)
  if ¬ WiresValid wires then respondConfiguring .wireInputError s0
  else if ¬ HzValid hz then respondConfiguring .hzInputError s0
  else if ¬ ModeValid mode then respondConfiguring .modeInputError s0
  else
    configuringRun
      (enterConfiguring (BitVec.ofNat 2 mode) (BitVec.ofNat 8 wires) (BitVec.ofNat 8 hz) false s0)

/-- A READ up to its code fetch (R86): the ready sample, then the two bytes of the code register. -/
def afterFetch (s : State) : State :=
  let s1 := (s.popReady.record (.rdy s.devReady)).setStale (!s.devReady)
  let m := s1.devByte
  let l := s1.popByte.devByte
  (s1.popByte.popByte.record (.busRd 0x01 2 [m, l])).setRaw (m ++ l)

/-- A READ up to its fault-status fetch (R86). -/
def afterFaultFetch (s : State) : State :=
  (s.popByte.record (.busRd 0x07 1 [s.devByte])).saveFault s.devByte

/-- READ as R86 writes the whole command out, from the state in which its word waits. -/
def readRun (s : State) : State :=
  let s1 := afterFetch (clearResponse (takeCommand s))
  if s1.raw.getLsbD 15 = true then
    let s2 := afterFaultFetch s1
    if s2.cfgValid = true then configuringRun (enterConfiguring s2.cfgMode s2.cfgWires s2.cfgHz true s2)
    else respondRead (classify s2.fsb) s2
  else
    match convert (rawCode s1.raw) with
    | none => respondRead .outOfRange s1
    | some r => respondRead (if s1.stale = true then .oldReading else .ok) (writeReading r s1)

end Sys2Proof.Safety
end

