-- ==== Sys2Proof/Certificates/Slice0/Obligations.lean ====
section
/-! DEFINITION. The statements for the provers. -/

open Sys2Proof Sys2Proof.Machine Sys2Proof.Safety

/-! ### Encoding -/

/-- R49, R54, R57: decoding the encoding of a well-formed command gives the command back. -/
def Obligations.DecodeOfEncode : Prop :=
  ∀ i : Instr, i.WellFormed → decode (encode i) = .command i

/-- R49, R55, R57: a word that decodes to a command is that command's encoding, and its operands fit. -/
def Obligations.EncodeOfDecode : Prop :=
  ∀ (w : Word) (i : Instr), decode w = .command i → i.WellFormed ∧ encode i = w

/-- R55, R68: an idle sequencer, its own move next, refuses a presented word exactly when it is one of the
reserved words listed there. That the refusal mark is the outcome `refused` is the model's rendering (log 7). -/
def Obligations.ReservedWordsAreRefused : Prop :=
  ∀ s : State, At s .idle → s.cmdValid = true →
    ((∃ why, step s = .refused (.reservedCommandWord why)) ↔
      (s.cmdWord.extractLsb' 0 2 = 0#2 ∨ s.cmdWord.extractLsb' 0 2 = 3#2 ∨
       (s.cmdWord.extractLsb' 0 2 = 1#2 ∧
          (s.cmdWord.extractLsb' 4 4 ≠ 0#4 ∨ s.cmdWord.extractLsb' 24 8 ≠ 0#8)) ∨
       (s.cmdWord.extractLsb' 0 2 = 2#2 ∧ s.cmdWord.extractLsb' 2 30 ≠ 0#30)))

/-- 95_test_vectors.md 2.1: words written out from the layout of R49 decode as the spec says. -/
def Obligations.SpecWordsDecode : Prop :=
  decode 0b00000000000000000000000000000010#32 = .command .read ∧
  decode 0b00000000001100100000001100000101#32 = .command (.start 1 3 50) ∧
  decode 0b00000000001111000000010000000001#32 = .command (.start 0 4 60) ∧
  decode 0b00000000001100100000001000001001#32 = .command (.start 2 2 50) ∧
  decode 0b00000000000000000000000000000001#32 = .command (.start 0 0 0) ∧
  decode 0b00000000001100100000001100010101#32 = .reserved .startBits7to4 ∧
  decode 0b00000001001100100000001100000101#32 = .reserved .startBits31to24 ∧
  decode 0b10000000000000000000000000000010#32 = .reserved .readBits31to2

/-- R57: the assembler reads back what is written of a well-formed command. The exact treatment of blanks is the
model's choice (log 26). -/
def Obligations.AssemblerReadsItsOwnText : Prop :=
  ∀ i : Instr, i.WellFormed → assembleLine (assemblerText i) = some i

/-! ### The step -/

/-- R68: when an idle sequencer's port holds a command and its own move is next, the step latches the word (log
17), takes it off the port (log 4) and executes the command; `takeMove` takes the move off the agenda (log
1). -/
def Obligations.StepRunsTheDecodedCommand : Prop :=
  ∀ (s : State) (i : Instr), At s .idle → s.cmdValid = true → decode s.cmdWord = .command i →
    step s = exec i { takeMove s with cmdValid := false, cmd := some s.cmdWord }

/-- R20, R68, R138: while `st ≠ IDLE`, `cmd_ready` is 0, the sequencer makes a step of its own, and the word on
the port, the waiting and the latched command (log 17) stay, the latter until the command completes. -/
def Obligations.BusySequencerLeavesThePort : Prop :=
  ∀ (s : State) (m : MicroState), At s m → m ≠ .idle →
    s.cmdReady = false ∧
    ∃ t, step s = .next t ∧ t.cmdValid = s.cmdValid ∧ t.cmdWord = s.cmdWord ∧
      (t.micro ≠ some .idle → t.cmd = s.cmd)

/-- R68: an idle sequencer with nothing presented has no step. That the machine's step then changes nothing but
the agenda, off which its move is taken, is the model's rendering (log 1, log 3). -/
def Obligations.IdleWithoutCommandChangesNothing : Prop :=
  ∀ s : State, At s .idle → s.cmdValid = false → step s = .next (takeMove s)

/-- R68: a command executed while `st ≠ IDLE` is not accepted and has no effect (log 23). -/
def Obligations.BusyCommandIsTurnedAway : Prop :=
  ∀ (s : State) (i : Instr), s.micro ≠ some .idle → exec i s = .next s

/-- R14, X2: when the sequencer's own move is next, it faults on a reserved code in `rsp_status`, and else on a
value of `st` from 14 to 31, and on nothing else; which of the two comes first is the model's choice (log 8). -/
def Obligations.FaultsOfTheStep : Prop :=
  ∀ s : State, nextMove s = .seq →
    (step s = .fault .reservedStatusCode ↔ 11 ≤ s.rspStatus.toNat) ∧
    (step s = .fault .unreachableMicroState ↔ s.rspStatus.toNat ≤ 10 ∧ 14 ≤ s.st.toNat)

/-- R14, R31: the record each micro-state's step leaves, and none in `IDLE` and `R_CONVERT`. Which answer of the
device comes next is the model's form of R32's draws (log 2). -/
def Obligations.EventOfEachMicroState : Prop :=
  ∀ (s t : State) (m : MicroState), At s m → step s = .next t →
    t.history = s.history ++
      (match m with
        | .idle | .rConvert => []
        | .cP1CsEnter | .cP2CsEnter => [.csE]
        | .cP1Write | .cP2Write => [.busWr 0x00 s.cfgbyte]
        | .cP1Readback | .cP2Readback => [.busRd 0x00 1 [s.devByte]]
        | .cP1CsLeave | .cP2CsLeave => [.csL]
        | .cDelay => [.dly Config.settleMs]
        | .rReady => [.rdy s.devReady]
        | .rCode => [.busRd 0x01 2 [s.devByte, s.popByte.devByte]]
        | .rFault => [.busRd 0x07 1 [s.devByte]])

/-- R30, R31: the transport calls of each boundary event. -/
def Obligations.TransportCallsOfEvents : Prop :=
  (∀ v, Event.transport (.busWr 0x00 v) = [.transmit [0x80, v]]) ∧
  (∀ a n bytes, Event.transport (.busRd a n bytes) = [.transmit [a], .receive n]) ∧
  (∀ b, Event.transport (.rdy b) = [.dataReady]) ∧
  (∀ ms, Event.transport (.dly ms) = [.delayMilliseconds ms]) ∧
  Event.transport .csE = [.enterCriticalSection] ∧
  Event.transport .csL = [.leaveCriticalSection]

/-- R32: every byte can be the device's answer to a read-back, whatever was written. That it is the first of the
chosen answers, that this one is used up and that `draws` counts it is the model's form of the draws (log 2). -/
def Obligations.AnyByteCanBeReadBack : Prop :=
  ∀ (s : State) (v : Byte), At s .cP1Readback ∨ At s .cP2Readback →
    ∃ t, step { s with devBytes := v :: s.devBytes } = .next t ∧ t.rb = v ∧ t.cfgbyte = s.cfgbyte ∧
      t.devBytes = s.devBytes ∧ t.draws = s.draws + 1

/-! ### START -/

/-- R68, R70, R71, R72: the acceptance step of START. The three checks run in the order WIRES, HZ, MODE, as the
spec decides (D5, D8; log 11); an input error writes only the response; valid operands enter the configuring
sequence. Nothing else changes. `cmd` is the latched word of R11 (log 17) and `responses` the sequence of R128
(log 21). -/
def Obligations.StartAcceptance : Prop :=
  ∀ (mode wires hz : Nat) (s : State), s.micro = some .idle → s.ctx = false →
    exec (.start mode wires hz) s = .next
      (if wires ≠ 2 ∧ wires ≠ 3 ∧ wires ≠ 4 then
        { s with
          rspValid := true, rspStatus := 2, resultValid := false, cmd := none
          responses := s.responses ++ [⟨2, false, s.tempC, s.tempK, s.tempF⟩] }
      else if hz ≠ 50 ∧ hz ≠ 60 then
        { s with
          rspValid := true, rspStatus := 3, resultValid := false, cmd := none
          responses := s.responses ++ [⟨3, false, s.tempC, s.tempK, s.tempF⟩] }
      else if mode ≠ 0 ∧ mode ≠ 1 then
        { s with
          rspValid := true, rspStatus := 4, resultValid := false, cmd := none
          responses := s.responses ++ [⟨4, false, s.tempC, s.tempK, s.tempF⟩] }
      else
        { s with
          rspValid := false, resultValid := false
          wMode := BitVec.ofNat 2 mode, wWires := BitVec.ofNat 8 wires, wHz := BitVec.ofNat 8 hz
          ctx := false, armed := false, st := 1 })

/-- R73 with the byte of R63: `C_P1_CSENTER`, and nothing else changes. The wiring and filter bits are the
spec's general knowledge and its own decision (R60, R61, D12; log 12); `u` is `s` with the sequencer's move
taken off the agenda (log 1). -/
def Obligations.EnterBiasPhase : Prop :=
  ∀ s : State, At s .cP1CsEnter →
    let u := takeMove s
    step s = .next
      { u with
        history := u.history ++ [.csE], csReq := true
        cfgbyte := 0x80 ||| 0x02 ||| (if u.wWires = 3 then 0x10 else 0x00) ||| (if u.wHz = 50 then 0x01 else 0x00)
        st := 2 }

/-- R74: `C_P1_WRITE`, and nothing else changes; `u` is `s` with the sequencer's move taken off the agenda (log
1). -/
def Obligations.WriteBiasByte : Prop :=
  ∀ s : State, At s .cP1Write →
    let u := takeMove s
    step s = .next { u with history := u.history ++ [.busWr 0x00 u.cfgbyte], st := 3 }

/-- R75: `C_P1_READBACK`, and nothing else changes. The byte read is the device's next answer, which is then
used up and counted (log 2); `u` is `s` with the sequencer's move taken off the agenda (log 1). -/
def Obligations.ReadBiasByteBack : Prop :=
  ∀ s : State, At s .cP1Readback →
    let u := takeMove s
    step s = .next
      { u with
        history := u.history ++ [.busRd 0x00 1 [u.devByte]], rb := u.devByte, st := 4
        devBytes := u.devBytes.tail, draws := u.draws + 1 }

/-- R76: `C_P1_CSLEAVE`: the critical section is left, then the comparison decides. The response is that of R83
(log 17, log 21); `u` is `s` with the sequencer's move taken off the agenda (log 1). -/
def Obligations.LeaveBiasPhase : Prop :=
  ∀ s : State, At s .cP1CsLeave →
    let u := takeMove s
    step s = .next
      (if u.rb ≠ u.cfgbyte then
        respondConfiguring .errorPreconfiguring { u with history := u.history ++ [.csL], csReq := false }
      else { u with history := u.history ++ [.csL], csReq := false, st := 5 })

/-- R77: the verification of either phase passes exactly when all eight bits agree. -/
def Obligations.VerificationComparesEveryBit : Prop :=
  (∀ s : State, At s .cP1CsLeave →
    ∃ t, step s = .next t ∧
      (t.micro = some .cDelay ↔ ∀ i, i < 8 → s.rb.getLsbD i = s.cfgbyte.getLsbD i)) ∧
  (∀ s : State, At s .cP2CsLeave → s.armed = false →
    ∃ t, step s = .next t ∧
      (t.armed = true ↔ ∀ i, i < 8 → s.rb.getLsbD i = s.cfgbyte.getLsbD i))

/-- R78 with the byte of R64: `C_DELAY`, and nothing else changes. The mode bits and the bits kept from the
first phase are the spec's decisions and general knowledge (R60 to R62, D12, D13; log 12), `SETTLE_MS` is opaque
(log 6); `u` is `s` with the sequencer's move taken off the agenda (log 1). -/
def Obligations.SettleAndBuildArmByte : Prop :=
  ∀ s : State, At s .cDelay →
    let u := takeMove s
    step s = .next
      { u with
        history := u.history ++ [.dly Config.settleMs]
        cfgbyte := cfgPhase1 u.wWires u.wHz ||| (if u.wMode = 0 then 0x20 else 0x40)
        st := 6 }

/-- R79: `C_P2_CSENTER`, and nothing else changes; `u` is `s` with the sequencer's move taken off the agenda
(log 1). -/
def Obligations.EnterArmPhase : Prop :=
  ∀ s : State, At s .cP2CsEnter →
    let u := takeMove s
    step s = .next { u with history := u.history ++ [.csE], csReq := true, st := 7 }

/-- R80: `C_P2_WRITE`, and nothing else changes; `u` is `s` with the sequencer's move taken off the agenda (log
1). -/
def Obligations.WriteArmByte : Prop :=
  ∀ s : State, At s .cP2Write →
    let u := takeMove s
    step s = .next { u with history := u.history ++ [.busWr 0x00 u.cfgbyte], st := 8 }

/-- R81: `C_P2_READBACK`, and nothing else changes. The byte read is the device's next answer, which is then
used up and counted (log 2); `u` is `s` with the sequencer's move taken off the agenda (log 1). -/
def Obligations.ReadArmByteBack : Prop :=
  ∀ s : State, At s .cP2Readback →
    let u := takeMove s
    step s = .next
      { u with
        history := u.history ++ [.busRd 0x00 1 [u.devByte]], rb := u.devByte, st := 9
        devBytes := u.devBytes.tail, draws := u.draws + 1 }

/-- R82: `C_P2_CSLEAVE`: the critical section is left, then the comparison decides, and a verified sequence
commits its operands. The response is that of R83 (log 17, log 21); `u` is `s` with the sequencer's move taken
off the agenda (log 1). -/
def Obligations.LeaveArmPhaseAndCommit : Prop :=
  ∀ s : State, At s .cP2CsLeave →
    let u := takeMove s
    step s = .next
      (if u.rb ≠ u.cfgbyte then
        respondConfiguring .errorConfiguring { u with history := u.history ++ [.csL], csReq := false }
      else
        respondConfiguring .ok
          { u with
            history := u.history ++ [.csL], csReq := false
            cfgMode := u.wMode, cfgWires := u.wWires, cfgHz := u.wHz, cfgValid := true, armed := true })

/-- R83: `respond` at the end of a configuring sequence, and nothing else changes but that the latched word of
R11 is let go (log 17) and the response joins the sequence of R128 (log 21); in a retry the sequence's own
status is discarded. -/
def Obligations.RespondOfConfiguring : Prop :=
  ∀ (x : Status) (s : State),
    respondConfiguring x s =
      { s with
        rspStatus := if s.ctx = false then x.code else s.pend
        rspValid := true, resultValid := false, ctx := false, st := 0, cmd := none
        responses := s.responses ++
          [⟨if s.ctx = false then x.code else s.pend, false, s.tempC, s.tempK, s.tempF⟩] }

/-- R69, R85: a START whose word waits, no other agent moving while it runs, runs in at most 10 steps exactly as
R69 writes the whole command out; the sequencer is then idle with nothing waiting. The accepted word has left
the port (log 4), a shorter run stays where it ended (log 3), the device's answers come in order (log 2), and
the latched word and the responses are the model's renderings (log 17, log 21). -/
def Obligations.StartRunsAsWritten : Prop :=
  ∀ (mode wires hz : Nat) (s : State), Awaits s (.start mode wires hz) →
    runSteps 10 s = .next (startRun mode wires hz s) ∧
    (startRun mode wires hz s).micro = some .idle ∧ (startRun mode wires hz s).cmdValid = false

/-- R84: the boundary history of a START is exactly one of four sequences, each with the status that belongs to
it (R70, R76, R82); `r1` and `r2` are the device's first two answers (log 2). The order of the input checks is
the spec's own (D8; log 11), and so are bits of the bytes `c1` and `c2` (log 12). -/
def Obligations.StartHistories : Prop :=
  ∀ (mode wires hz : Nat) (s : State), Awaits s (.start mode wires hz) →
    ∃ t, runSteps 10 s = .next t ∧
      (let c1 := cfgPhase1 (BitVec.ofNat 8 wires) (BitVec.ofNat 8 hz)
       let c2 := cfgPhase2 (BitVec.ofNat 2 mode) (BitVec.ofNat 8 wires) (BitVec.ofNat 8 hz)
       let r1 := s.devByte
       let r2 := s.popByte.devByte
       ((∃ e, inputError mode wires hz = some e ∧ t.rspStatus = e.code) ∧ t.history = s.history) ∨
       (inputError mode wires hz = none ∧ r1 ≠ c1 ∧ t.rspStatus = 5 ∧
          t.history = s.history ++ [.csE, .busWr 0x00 c1, .busRd 0x00 1 [r1], .csL]) ∨
       (inputError mode wires hz = none ∧ r1 = c1 ∧ r2 ≠ c2 ∧ t.rspStatus = 6 ∧
          t.history = s.history ++ [.csE, .busWr 0x00 c1, .busRd 0x00 1 [c1], .csL, .dly Config.settleMs,
            .csE, .busWr 0x00 c2, .busRd 0x00 1 [r2], .csL]) ∨
       (inputError mode wires hz = none ∧ r1 = c1 ∧ r2 = c2 ∧ t.rspStatus = 0 ∧
          t.history = s.history ++ [.csE, .busWr 0x00 c1, .busRd 0x00 1 [c1], .csL, .dly Config.settleMs,
            .csE, .busWr 0x00 c2, .busRd 0x00 1 [c2], .csL]))

/-- R85: a START with valid operands either returns `OK` with the stored Configuration equal to its inputs, or a
verification error with the stored Configuration as before; one with an invalid operand returns the matching
input error, the first in the order of R70 (D8; log 11), with no boundary event at all. -/
def Obligations.StartStoresItsInputsOrNothing : Prop :=
  ∀ (mode wires hz : Nat) (s : State), Awaits s (.start mode wires hz) →
    ∃ t, runSteps 10 s = .next t ∧ t.rspValid = true ∧ t.resultValid = false ∧
      (if inputError mode wires hz = none then
        (t.rspStatus = 0 ∧ t.armed = true ∧ t.cfgValid = true ∧ t.cfgMode.toNat = mode ∧
          t.cfgWires.toNat = wires ∧ t.cfgHz.toNat = hz) ∨
        ((t.rspStatus = 5 ∨ t.rspStatus = 6) ∧ t.armed = false ∧ t.cfgValid = s.cfgValid ∧
          t.cfgMode = s.cfgMode ∧ t.cfgWires = s.cfgWires ∧ t.cfgHz = s.cfgHz)
      else
        (∃ e, inputError mode wires hz = some e ∧ t.rspStatus = e.code) ∧ t.history = s.history ∧
          t.armed = s.armed ∧ t.cfgValid = s.cfgValid ∧ t.cfgMode = s.cfgMode ∧
          t.cfgWires = s.cfgWires ∧ t.cfgHz = s.cfgHz)

/-- 95_test_vectors.md, premise ECHO: against a device that echoes the configuration register, a START with
valid operands, no other agent moving while it runs, returns `OK` and leaves the sequencer armed. ECHO is a
premise about the device, not a rule. -/
def Obligations.StartAgainstAnEchoingDevice : Prop :=
  ∀ (mode wires hz : Nat) (s : State), Awaits s (.start mode wires hz) → inputError mode wires hz = none →
    ∃ t, runSteps 10 s = .next t ∧
      (echoes none (t.history.drop s.history.length) = true →
        t.rspStatus = Status.ok.code ∧ t.fsmState = some .armed ∧ t.cfgValid = true)

/-! ### READ -/

/-- R68, R86, R95: the acceptance step of READ in every idle state, and nothing else changes. -/
def Obligations.ReadAcceptance : Prop :=
  ∀ s : State, s.micro = some .idle →
    exec .read s = .next { s with rspValid := false, resultValid := false, st := 10 }

/-- R87: `R_READY`, and nothing else changes. The answer is the device's next one, which is then used up and
counted (log 2); `u` is `s` with the sequencer's move taken off the agenda (log 1). -/
def Obligations.SampleDataReady : Prop :=
  ∀ s : State, At s .rReady →
    let u := takeMove s
    step s = .next
      { u with
        history := u.history ++ [.rdy u.devReady], stale := !u.devReady, st := 11
        devReadies := u.devReadies.tail, draws := u.draws + 1 }

/-- R88: `R_CODE`, and nothing else changes; the first byte received is the MSB. The bytes are the device's next
two answers, which are then used up and counted (log 2); `u` is `s` with the sequencer's move taken off the
agenda (log 1). -/
def Obligations.FetchCode : Prop :=
  ∀ s : State, At s .rCode →
    let u := takeMove s
    step s = .next
      { u with
        history := u.history ++ [.busRd 0x01 2 [u.devByte, u.popByte.devByte]]
        raw := BitVec.ofNat 16 (u.devByte.toNat * 256 + u.popByte.devByte.toNat)
        st := if 128 ≤ u.devByte.toNat then 12 else 13
        devBytes := u.devBytes.tail.tail, draws := u.draws + 2 }

/-- R89, R93: `R_FAULT`: the retry is entered with a stored Configuration, and without one the READ completes
with the class of the fault (R90, D20; log 13). The byte is the device's next answer, which is then used up and
counted (log 2); at completion the latched word is let go (log 17) and the response joins the sequence of R128
(log 21); `u` is `s` with the sequencer's move taken off the agenda (log 1). Nothing else changes. -/
def Obligations.ClassifyFaultAndRetry : Prop :=
  ∀ s : State, At s .rFault →
    let u := takeMove s
    step s = .next
      (let fs := u.devByte
       let s1 : State :=
         { u with
           history := u.history ++ [.busRd 0x07 1 [fs]], fsb := fs, pend := (classify fs).code
           devBytes := u.devBytes.tail, draws := u.draws + 1 }
       if u.cfgValid = true then
         { s1 with
           wMode := u.cfgMode, wWires := u.cfgWires, wHz := u.cfgHz, ctx := true, armed := false, st := 1 }
       else
         { s1 with
           rspStatus := (classify fs).code, rspValid := true, resultValid := false, st := 0, cmd := none
           responses := u.responses ++ [⟨(classify fs).code, false, u.tempC, u.tempK, u.tempF⟩] })

/-- R90: the classification by the bits of the fault-status byte. The second and third rows are the spec's own
reading of an unclear row of the source (D20; log 13). -/
def Obligations.ClassificationByBits : Prop :=
  ∀ fs : Byte,
    (classify fs = .brokenRtdWire ↔ ∃ i, 3 ≤ i ∧ i < 8 ∧ fs.getLsbD i = true) ∧
    (classify fs = .circuitMalfunction ↔
      (∀ i, 3 ≤ i → i < 8 → fs.getLsbD i = false) ∧ ∃ i, i < 3 ∧ fs.getLsbD i = true) ∧
    (classify fs = .unknownError ↔ fs = 0x00)

/-- R92, R93: `R_CONVERT`. At completion the latched word of R11 is let go (log 17) and the response joins the
sequence of R128 (log 21); `u` is `s` with the sequencer's move taken off the agenda (log 1). That a stale
reading delivers its value is C1 and D17 (log 14). Nothing else changes. -/
def Obligations.ConvertAndRespond : Prop :=
  ∀ s : State, At s .rConvert →
    let u := takeMove s
    step s = .next
      (match convert (u.raw.extractLsb' 0 15) with
        | none =>
          { u with
            rspStatus := 10, rspValid := true, resultValid := false, st := 0, cmd := none
            responses := u.responses ++ [⟨10, false, u.tempC, u.tempK, u.tempF⟩] }
        | some r =>
          { u with
            tempC := BitVec.ofInt 32 r.c, tempK := BitVec.ofInt 32 r.k, tempF := BitVec.ofInt 32 r.f
            rspStatus := if u.stale = true then 1 else 0
            rspValid := true, resultValid := true, st := 0, cmd := none
            responses := u.responses ++
              [⟨if u.stale = true then 1 else 0, true, BitVec.ofInt 32 r.c, BitVec.ofInt 32 r.k,
                BitVec.ofInt 32 r.f⟩] })

/-- R86, R97: a READ whose word waits, no other agent moving while it runs, runs in at most 13 steps exactly as
R86 writes the whole command out, its retry included; the sequencer is then idle with nothing waiting. The
accepted word has left the port (log 4), a shorter run stays where it ended (log 3), the device's answers come
in order (log 2), and the latched word and the responses are the model's renderings (log 17, log 21). -/
def Obligations.ReadRunsAsWritten : Prop :=
  ∀ s : State, Awaits s .read →
    runSteps 13 s = .next (readRun s) ∧
    (readRun s).micro = some .idle ∧ (readRun s).cmdValid = false

/-- R97: without a retry a READ, no other agent moving while it runs, takes at most 4 steps and leaves `armed`
as it was (R95). Which answers of the device are the code bytes is the model's form of the draws (log 2), and a
shorter run stays where it ended (log 3). -/
def Obligations.ReadWithoutRetryTakesFourSteps : Prop :=
  ∀ s : State, Awaits s .read → s.popReady.devByte.getLsbD 7 = false ∨ s.cfgValid = false →
    ∃ t, runSteps 4 s = .next t ∧ t.micro = some .idle ∧ t.rspValid = true ∧
      t.armed = s.armed

/-- R94: the one status a READ reports: a set fault flag before a code out of range before a stale sample. The
order of the last two and the classification are the spec's own (D18, D20; log 13, log 14); the answers of the
device come in order (log 2). -/
def Obligations.ReadStatusPriority : Prop :=
  ∀ s : State, Awaits s .read →
    ∃ t, runSteps 13 s = .next t ∧
      (let s1 := s.popReady
       let code := s1.devByte.toNat % 128 * 256 + s1.popByte.devByte.toNat
       t.rspStatus =
         if 128 ≤ s1.devByte.toNat then (classify s1.popByte.popByte.devByte).code
         else if code < 7227 ∨ 7227 + Config.table.len ≤ code then 10
         else if s.devReady = false then 1
         else 0)

/-- R96: the boundary history of a READ that runs no retry, and the first three records of one that does, which
the history of a configuring sequence with the stored operands follows; the answers of the device come in order
(log 2), and bits of `c1` and `c2` are the spec's own (log 12). -/
def Obligations.ReadHistories : Prop :=
  ∀ s : State, Awaits s .read →
    ∃ t, runSteps 13 s = .next t ∧
      (let b := s.devReady
       let s1 := s.popReady
       let m := s1.devByte
       let l := s1.popByte.devByte
       let s2 := s1.popByte.popByte
       let fs := s2.devByte
       let c1 := cfgPhase1 s.cfgWires s.cfgHz
       let c2 := cfgPhase2 s.cfgMode s.cfgWires s.cfgHz
       let r1 := s2.popByte.devByte
       let r2 := s2.popByte.popByte.devByte
       let fetch : List Event := [.rdy b, .busRd 0x01 2 [m, l]]
       let phase1 : List Event := [.csE, .busWr 0x00 c1, .busRd 0x00 1 [r1], .csL]
       let phase2 : List Event := [.dly Config.settleMs, .csE, .busWr 0x00 c2, .busRd 0x00 1 [r2], .csL]
       t.history = s.history ++ fetch ++
         (if m.getLsbD 7 = false then []
          else if s.cfgValid = false then [.busRd 0x07 1 [fs]]
          else if r1 ≠ c1 then .busRd 0x07 1 [fs] :: phase1
          else .busRd 0x07 1 [fs] :: (phase1 ++ phase2)))

/-- R97, R82: a READ never changes the stored Configuration, whatever its retry does, no other agent moving
while it runs. -/
def Obligations.ReadKeepsTheConfiguration : Prop :=
  ∀ s : State, Awaits s .read →
    ∃ t, runSteps 13 s = .next t ∧ t.cfgValid = s.cfgValid ∧ t.cfgMode = s.cfgMode ∧
      t.cfgWires = s.cfgWires ∧ t.cfgHz = s.cfgHz

/-- R118: a step of the configuring sequence stays in the sequence or completes the command, so no fault is
taken inside a retry. -/
def Obligations.FaultPathNeverNests : Prop :=
  ∀ (s t : State) (m : MicroState), At s m → m.configuring = true → step s = .next t →
    (t.micro = some .idle ∧ t.ctx = false) ∨
    (∃ m', t.micro = some m' ∧ m'.configuring = true ∧ t.ctx = s.ctx ∧ t.pend = s.pend)

/-! ### Conversion -/

/-- R102 to R107: the conversion engine on every code. -/
def Obligations.ConversionOfEveryCode : Prop :=
  ∀ code : Code,
    (∀ h : 7227 ≤ code.toNat ∧ code.toNat < 7227 + Config.table.len,
      convert code = some
        ⟨(Config.table.entry ⟨code.toNat - 7227, by omega⟩).toInt,
         (Config.table.entry ⟨code.toNat - 7227, by omega⟩).toInt + 27315,
         18 * (Config.table.entry ⟨code.toNat - 7227, by omega⟩).toInt + 32000⟩) ∧
    (¬ (7227 ≤ code.toNat ∧ code.toNat < 7227 + Config.table.len) → convert code = none)

/-- R108: the results lie in the ranges the rule gives, and the 32-bit output registers hold them exactly. -/
def Obligations.ConversionFitsTheRegisters : Prop :=
  ∀ (code : Code) (r : Reading) (s : State), convert code = some r →
    (-32768 ≤ r.c ∧ r.c ≤ 32767) ∧ (-5453 ≤ r.k ∧ r.k ≤ 60082) ∧ (-557824 ≤ r.f ∧ r.f ≤ 621806) ∧
    (writeReading r s).tempC.toInt = r.c ∧ (writeReading r s).tempK.toInt = r.k ∧
    (writeReading r s).tempF.toInt = r.f

/-- R109: the results are non-decreasing in the code over the calibrated range. -/
def Obligations.ConversionIsMonotone : Prop :=
  ∀ a b : Code, 7227 ≤ a.toNat → a.toNat ≤ b.toNat → b.toNat ≤ Config.maxCode →
    ∃ x y, convert a = some x ∧ convert b = some y ∧ x.c ≤ y.c ∧ x.k ≤ y.k ∧ x.f ≤ y.f

/-- R110: the source's three conversion scenarios. -/
def Obligations.ConversionScenarios : Prop :=
  convert 7227#15 = some ⟨-3000, 24315, -22000⟩ ∧
  convert 8192#15 = some ⟨0, 27315, 32000⟩ ∧
  convert 14406#15 = some ⟨20000, 47315, 392000⟩

/-! ### The configuration byte, the outputs and reset -/

/-- R59 to R64: every field of the two configuration bytes. The wiring, filter and mode mappings are the spec's
general knowledge and decisions (D10 to D13; log 12). -/
def Obligations.ConfigurationByteFields : Prop :=
  ∀ (mode : BitVec 2) (wires hz : Byte),
    (let b := cfgPhase1 wires hz
     cfgBias b = true ∧ cfgContinuous b = false ∧ cfgOneShot b = false ∧ (cfgWiring b = true ↔ wires = 3) ∧
       cfgFaultCycle b = 0 ∧ cfgFaultClear b = true ∧ (cfgFilter b = true ↔ hz = 50)) ∧
    (let b := cfgPhase2 mode wires hz
     cfgBias b = true ∧ (cfgContinuous b = true ↔ mode ≠ 0) ∧ (cfgOneShot b = true ↔ mode = 0) ∧
       (cfgWiring b = true ↔ wires = 3) ∧ cfgFaultCycle b = 0 ∧ cfgFaultClear b = true ∧
       (cfgFilter b = true ↔ hz = 50))

/-- R15, R20, R21: the combinational outputs in every legal micro-state. -/
def Obligations.CombinationalOutputs : Prop :=
  ∀ s : State,
    (s.cmdReady = true ↔ s.st = 0) ∧
    (s.ports.fsmState =
      if s.st = 0 then (if s.armed = true then some 1 else some 0)
      else if 1 ≤ s.st.toNat ∧ s.st.toNat ≤ 9 then some 2
      else if s.st = 10 ∨ s.st = 11 ∨ s.st = 13 then some 3
      else if s.st = 12 then some 4
      else none)

/-- R129: every register after reset, and the two derived outputs. -/
def Obligations.ResetValues : Prop :=
  let s := State.reset
  s.micro = some .idle ∧ s.st = 0 ∧ s.armed = false ∧ s.ctx = false ∧ s.csReq = false ∧
  s.cfgValid = false ∧ s.cfgMode = 0 ∧ s.cfgWires = 0 ∧ s.cfgHz = 0 ∧
  s.wMode = 0 ∧ s.wWires = 0 ∧ s.wHz = 0 ∧ s.cfgbyte = 0x00 ∧ s.rb = 0x00 ∧ s.stale = false ∧
  s.raw = 0x0000 ∧ s.fsb = 0x00 ∧ s.pend = 0 ∧ s.rspValid = false ∧ s.rspStatus = 0 ∧
  s.resultValid = false ∧ s.tempC = 0 ∧ s.tempK = 0 ∧ s.tempF = 0 ∧
  s.fsmState = some .unconfigured ∧ s.cmdReady = true

/-- R130: reset arriving in any state puts every register at its reset value, abandons the command without a
response and records no event. That it arrives as a move of the agenda is the model's form (log 10). -/
def Obligations.ResetArrivesAnywhere : Prop :=
  ∀ (s : State) (rest : List Move), s.agenda = .reset :: rest →
    step s = .next
      { State.reset with
        cmdValid := s.cmdValid, cmdWord := s.cmdWord, history := s.history, responses := s.responses
        devBytes := s.devBytes, devReadies := s.devReadies, draws := s.draws, agenda := rest }

/-! ### Invariants -/

/-- The invariants of R25 hold after reset. -/
def Obligations.InvariantsHoldAtReset : Prop :=
  MachineInv State.reset ∧ SequenceInv State.reset ∧ CommandInv State.reset ∧ HistoryInv State.reset

/-- R25 I1 to I8: every step keeps them, whoever's move it is. -/
def Obligations.StepKeepsTheInvariants : Prop :=
  ∀ s t : State, MachineInv s → step s = .next t → MachineInv t

/-- R25 I9: every step keeps what is known of the last configuring sequence. -/
def Obligations.StepKeepsTheSequenceInvariant : Prop :=
  ∀ s t : State, MachineInv s → SequenceInv s → step s = .next t → SequenceInv t

/-- R11, R68: every step keeps the latched command in agreement with what the sequencer is doing. -/
def Obligations.StepKeepsTheCommandInvariant : Prop :=
  ∀ s t : State, MachineInv s → CommandInv s → step s = .next t → CommandInv t

/-- R29: every step keeps the history free of any access but the four of that rule and of any delay but
`SETTLE_MS`. -/
def Obligations.StepKeepsTheHistoryInvariant : Prop :=
  ∀ s t : State, HistoryInv s → step s = .next t → HistoryInv t

/-! ### Whole-machine rules -/

/-- R17, C3: but for reset, the stored Configuration changes only in the step that verifies a mode-arm phase,
and becomes the operands of that sequence. -/
def Obligations.OnlyAVerifiedSequenceStoresAConfiguration : Prop :=
  ∀ s t : State, step s = .next t → nextMove s ≠ .reset →
    (t.cfgValid ≠ s.cfgValid ∨ t.cfgMode ≠ s.cfgMode ∨ t.cfgWires ≠ s.cfgWires ∨ t.cfgHz ≠ s.cfgHz) →
    s.micro = some .cP2CsLeave ∧ s.rb = s.cfgbyte ∧ t.cfgValid = true ∧ t.cfgMode = s.wMode ∧
      t.cfgWires = s.wWires ∧ t.cfgHz = s.wHz

/-- R16, R72, R82, R89: `armed` rises only when a mode-arm phase verifies, and but for reset it falls only when
a configuring sequence is entered. -/
def Obligations.ArmedRisesAndFalls : Prop :=
  ∀ s t : State, step s = .next t → nextMove s ≠ .reset →
    (s.armed = false → t.armed = true → s.micro = some .cP2CsLeave ∧ s.rb = s.cfgbyte) ∧
    (s.armed = true → t.armed = false →
      t.micro = some .cP1CsEnter ∧ (s.micro = some .idle ∨ s.micro = some .rFault))

/-- R93, D26: but for reset, the temperatures change only in `R_CONVERT` on a code in range, and the same step
reports `OK` or `OLD_READING` with `result_valid = 1`. -/
def Obligations.OnlyConversionWritesTemperatures : Prop :=
  ∀ s t : State, step s = .next t → nextMove s ≠ .reset →
    (t.tempC ≠ s.tempC ∨ t.tempK ≠ s.tempK ∨ t.tempF ≠ s.tempF) →
    s.micro = some .rConvert ∧ convert (rawCode s.raw) ≠ none ∧ t.resultValid = true ∧
      (t.rspStatus = Status.ok.code ∨ t.rspStatus = Status.oldReading.code)

/-- R42: the sequencer never enters a critical section while it holds one, leaves only one it holds, and writes
the device or reads its configuration back only inside one. -/
def Obligations.CriticalSectionDiscipline : Prop :=
  ∀ (s t : State) (e : Event), MachineInv s → step s = .next t → t.history = s.history ++ [e] →
    (e = .csE → s.csReq = false ∧ t.csReq = true) ∧
    (e = .csL → s.csReq = true ∧ t.csReq = false) ∧
    (∀ a v, e = .busWr a v → s.csReq = true ∧ t.csReq = true) ∧
    (∀ n bytes, e = .busRd 0x00 n bytes → s.csReq = true ∧ t.csReq = true) ∧
    (∀ ms, e = .dly ms → s.csReq = false)

/-- R20, R32, R42, R127: what the moves of HOST, DEV, PLAT and OTHER do, and nothing else changes: HOST presents
a word, over one still waiting too (X18); DEV chooses answers; PLAT waits; OTHER's transaction happens only
while `cs_req = 0`. The agenda, the lists of chosen answers and the refusal of OTHER's move otherwise are the
model's (log 1, log 2, log 9). A host that takes a waiting word away breaks its duty in R127 and has no move
(log 29). -/
def Obligations.MovesOfTheOtherAgents : Prop :=
  ∀ (s : State) (rest : List Move),
    (∀ w, s.agenda = .hostPresent w :: rest →
      step s = .next { s with agenda := rest, cmdValid := true, cmdWord := w }) ∧
    (∀ bytes, s.agenda = .devBytes bytes :: rest →
      step s = .next { s with agenda := rest, devBytes := s.devBytes ++ bytes }) ∧
    (∀ b, s.agenda = .devReady b :: rest →
      step s = .next { s with agenda := rest, devReadies := s.devReadies ++ [b] }) ∧
    (s.agenda = .platWait :: rest → step s = .next { s with agenda := rest }) ∧
    (∀ sent n, s.agenda = .otherBus sent n :: rest →
      step s = if s.csReq = true then .refused .busDutyBroken else .next { s with agenda := rest })

/-- R111: when a command completes, `rsp_valid` is set, the status written is one of R58's codes or the `pend`
of a retry, and the response recorded (R128; log 21) is what the output registers show. -/
def Obligations.CompletionReportsOneStatus : Prop :=
  ∀ (s t : State) (m : MicroState), At s m → m ≠ .idle → step s = .next t → t.micro = some .idle →
    t.rspValid = true ∧
    t.responses = s.responses ++ [⟨t.rspStatus, t.resultValid, t.tempC, t.tempK, t.tempF⟩] ∧
    ((∃ x : Status, t.rspStatus = x.code) ∨ (s.ctx = true ∧ t.rspStatus = s.pend))
end

