-- ==== Sys2Proof/Laws/State.lean ====
section
/-! SUPPORT. What each update of the state does to each field, so that no later proof unfolds a record update. -/

namespace Sys2Proof.Machine

/-! ### State.record -/

@[simp] theorem State.record_st (s : State) (e : Event) : (s.record e).st = s.st := rfl
@[simp] theorem State.record_armed (s : State) (e : Event) : (s.record e).armed = s.armed := rfl
@[simp] theorem State.record_ctx (s : State) (e : Event) : (s.record e).ctx = s.ctx := rfl
@[simp] theorem State.record_csReq (s : State) (e : Event) : (s.record e).csReq = s.csReq := rfl
@[simp] theorem State.record_cfgValid (s : State) (e : Event) : (s.record e).cfgValid = s.cfgValid := rfl
@[simp] theorem State.record_cfgMode (s : State) (e : Event) : (s.record e).cfgMode = s.cfgMode := rfl
@[simp] theorem State.record_cfgWires (s : State) (e : Event) : (s.record e).cfgWires = s.cfgWires := rfl
@[simp] theorem State.record_cfgHz (s : State) (e : Event) : (s.record e).cfgHz = s.cfgHz := rfl
@[simp] theorem State.record_wMode (s : State) (e : Event) : (s.record e).wMode = s.wMode := rfl
@[simp] theorem State.record_wWires (s : State) (e : Event) : (s.record e).wWires = s.wWires := rfl
@[simp] theorem State.record_wHz (s : State) (e : Event) : (s.record e).wHz = s.wHz := rfl
@[simp] theorem State.record_cfgbyte (s : State) (e : Event) : (s.record e).cfgbyte = s.cfgbyte := rfl
@[simp] theorem State.record_rb (s : State) (e : Event) : (s.record e).rb = s.rb := rfl
@[simp] theorem State.record_stale (s : State) (e : Event) : (s.record e).stale = s.stale := rfl
@[simp] theorem State.record_raw (s : State) (e : Event) : (s.record e).raw = s.raw := rfl
@[simp] theorem State.record_fsb (s : State) (e : Event) : (s.record e).fsb = s.fsb := rfl
@[simp] theorem State.record_pend (s : State) (e : Event) : (s.record e).pend = s.pend := rfl
@[simp] theorem State.record_rspValid (s : State) (e : Event) : (s.record e).rspValid = s.rspValid := rfl
@[simp] theorem State.record_rspStatus (s : State) (e : Event) : (s.record e).rspStatus = s.rspStatus := rfl
@[simp] theorem State.record_resultValid (s : State) (e : Event) : (s.record e).resultValid = s.resultValid := rfl
@[simp] theorem State.record_tempC (s : State) (e : Event) : (s.record e).tempC = s.tempC := rfl
@[simp] theorem State.record_tempK (s : State) (e : Event) : (s.record e).tempK = s.tempK := rfl
@[simp] theorem State.record_tempF (s : State) (e : Event) : (s.record e).tempF = s.tempF := rfl
@[simp] theorem State.record_cmdValid (s : State) (e : Event) : (s.record e).cmdValid = s.cmdValid := rfl
@[simp] theorem State.record_cmdWord (s : State) (e : Event) : (s.record e).cmdWord = s.cmdWord := rfl
@[simp] theorem State.record_cmd (s : State) (e : Event) : (s.record e).cmd = s.cmd := rfl
@[simp] theorem State.record_history (s : State) (e : Event) : (s.record e).history = s.history ++ [e] := rfl
@[simp] theorem State.record_responses (s : State) (e : Event) : (s.record e).responses = s.responses := rfl
@[simp] theorem State.record_devBytes (s : State) (e : Event) : (s.record e).devBytes = s.devBytes := rfl
@[simp] theorem State.record_devReadies (s : State) (e : Event) : (s.record e).devReadies = s.devReadies := rfl
@[simp] theorem State.record_draws (s : State) (e : Event) : (s.record e).draws = s.draws := rfl
@[simp] theorem State.record_agenda (s : State) (e : Event) : (s.record e).agenda = s.agenda := rfl

/-! ### State.popByte -/

@[simp] theorem State.popByte_st (s : State) : s.popByte.st = s.st := rfl
@[simp] theorem State.popByte_armed (s : State) : s.popByte.armed = s.armed := rfl
@[simp] theorem State.popByte_ctx (s : State) : s.popByte.ctx = s.ctx := rfl
@[simp] theorem State.popByte_csReq (s : State) : s.popByte.csReq = s.csReq := rfl
@[simp] theorem State.popByte_cfgValid (s : State) : s.popByte.cfgValid = s.cfgValid := rfl
@[simp] theorem State.popByte_cfgMode (s : State) : s.popByte.cfgMode = s.cfgMode := rfl
@[simp] theorem State.popByte_cfgWires (s : State) : s.popByte.cfgWires = s.cfgWires := rfl
@[simp] theorem State.popByte_cfgHz (s : State) : s.popByte.cfgHz = s.cfgHz := rfl
@[simp] theorem State.popByte_wMode (s : State) : s.popByte.wMode = s.wMode := rfl
@[simp] theorem State.popByte_wWires (s : State) : s.popByte.wWires = s.wWires := rfl
@[simp] theorem State.popByte_wHz (s : State) : s.popByte.wHz = s.wHz := rfl
@[simp] theorem State.popByte_cfgbyte (s : State) : s.popByte.cfgbyte = s.cfgbyte := rfl
@[simp] theorem State.popByte_rb (s : State) : s.popByte.rb = s.rb := rfl
@[simp] theorem State.popByte_stale (s : State) : s.popByte.stale = s.stale := rfl
@[simp] theorem State.popByte_raw (s : State) : s.popByte.raw = s.raw := rfl
@[simp] theorem State.popByte_fsb (s : State) : s.popByte.fsb = s.fsb := rfl
@[simp] theorem State.popByte_pend (s : State) : s.popByte.pend = s.pend := rfl
@[simp] theorem State.popByte_rspValid (s : State) : s.popByte.rspValid = s.rspValid := rfl
@[simp] theorem State.popByte_rspStatus (s : State) : s.popByte.rspStatus = s.rspStatus := rfl
@[simp] theorem State.popByte_resultValid (s : State) : s.popByte.resultValid = s.resultValid := rfl
@[simp] theorem State.popByte_tempC (s : State) : s.popByte.tempC = s.tempC := rfl
@[simp] theorem State.popByte_tempK (s : State) : s.popByte.tempK = s.tempK := rfl
@[simp] theorem State.popByte_tempF (s : State) : s.popByte.tempF = s.tempF := rfl
@[simp] theorem State.popByte_cmdValid (s : State) : s.popByte.cmdValid = s.cmdValid := rfl
@[simp] theorem State.popByte_cmdWord (s : State) : s.popByte.cmdWord = s.cmdWord := rfl
@[simp] theorem State.popByte_cmd (s : State) : s.popByte.cmd = s.cmd := rfl
@[simp] theorem State.popByte_history (s : State) : s.popByte.history = s.history := rfl
@[simp] theorem State.popByte_responses (s : State) : s.popByte.responses = s.responses := rfl
@[simp] theorem State.popByte_devBytes (s : State) : s.popByte.devBytes = s.devBytes.tail := rfl
@[simp] theorem State.popByte_devReadies (s : State) : s.popByte.devReadies = s.devReadies := rfl
@[simp] theorem State.popByte_draws (s : State) : s.popByte.draws = s.draws + 1 := rfl
@[simp] theorem State.popByte_agenda (s : State) : s.popByte.agenda = s.agenda := rfl

/-! ### State.popReady -/

@[simp] theorem State.popReady_st (s : State) : s.popReady.st = s.st := rfl
@[simp] theorem State.popReady_armed (s : State) : s.popReady.armed = s.armed := rfl
@[simp] theorem State.popReady_ctx (s : State) : s.popReady.ctx = s.ctx := rfl
@[simp] theorem State.popReady_csReq (s : State) : s.popReady.csReq = s.csReq := rfl
@[simp] theorem State.popReady_cfgValid (s : State) : s.popReady.cfgValid = s.cfgValid := rfl
@[simp] theorem State.popReady_cfgMode (s : State) : s.popReady.cfgMode = s.cfgMode := rfl
@[simp] theorem State.popReady_cfgWires (s : State) : s.popReady.cfgWires = s.cfgWires := rfl
@[simp] theorem State.popReady_cfgHz (s : State) : s.popReady.cfgHz = s.cfgHz := rfl
@[simp] theorem State.popReady_wMode (s : State) : s.popReady.wMode = s.wMode := rfl
@[simp] theorem State.popReady_wWires (s : State) : s.popReady.wWires = s.wWires := rfl
@[simp] theorem State.popReady_wHz (s : State) : s.popReady.wHz = s.wHz := rfl
@[simp] theorem State.popReady_cfgbyte (s : State) : s.popReady.cfgbyte = s.cfgbyte := rfl
@[simp] theorem State.popReady_rb (s : State) : s.popReady.rb = s.rb := rfl
@[simp] theorem State.popReady_stale (s : State) : s.popReady.stale = s.stale := rfl
@[simp] theorem State.popReady_raw (s : State) : s.popReady.raw = s.raw := rfl
@[simp] theorem State.popReady_fsb (s : State) : s.popReady.fsb = s.fsb := rfl
@[simp] theorem State.popReady_pend (s : State) : s.popReady.pend = s.pend := rfl
@[simp] theorem State.popReady_rspValid (s : State) : s.popReady.rspValid = s.rspValid := rfl
@[simp] theorem State.popReady_rspStatus (s : State) : s.popReady.rspStatus = s.rspStatus := rfl
@[simp] theorem State.popReady_resultValid (s : State) : s.popReady.resultValid = s.resultValid := rfl
@[simp] theorem State.popReady_tempC (s : State) : s.popReady.tempC = s.tempC := rfl
@[simp] theorem State.popReady_tempK (s : State) : s.popReady.tempK = s.tempK := rfl
@[simp] theorem State.popReady_tempF (s : State) : s.popReady.tempF = s.tempF := rfl
@[simp] theorem State.popReady_cmdValid (s : State) : s.popReady.cmdValid = s.cmdValid := rfl
@[simp] theorem State.popReady_cmdWord (s : State) : s.popReady.cmdWord = s.cmdWord := rfl
@[simp] theorem State.popReady_cmd (s : State) : s.popReady.cmd = s.cmd := rfl
@[simp] theorem State.popReady_history (s : State) : s.popReady.history = s.history := rfl
@[simp] theorem State.popReady_responses (s : State) : s.popReady.responses = s.responses := rfl
@[simp] theorem State.popReady_devBytes (s : State) : s.popReady.devBytes = s.devBytes := rfl
@[simp] theorem State.popReady_devReadies (s : State) : s.popReady.devReadies = s.devReadies.tail := rfl
@[simp] theorem State.popReady_draws (s : State) : s.popReady.draws = s.draws + 1 := rfl
@[simp] theorem State.popReady_agenda (s : State) : s.popReady.agenda = s.agenda := rfl

/-! ### csEnter -/

@[simp] theorem csEnter_st (s : State) : (csEnter s).st = s.st := rfl
@[simp] theorem csEnter_armed (s : State) : (csEnter s).armed = s.armed := rfl
@[simp] theorem csEnter_ctx (s : State) : (csEnter s).ctx = s.ctx := rfl
@[simp] theorem csEnter_csReq (s : State) : (csEnter s).csReq = true := rfl
@[simp] theorem csEnter_cfgValid (s : State) : (csEnter s).cfgValid = s.cfgValid := rfl
@[simp] theorem csEnter_cfgMode (s : State) : (csEnter s).cfgMode = s.cfgMode := rfl
@[simp] theorem csEnter_cfgWires (s : State) : (csEnter s).cfgWires = s.cfgWires := rfl
@[simp] theorem csEnter_cfgHz (s : State) : (csEnter s).cfgHz = s.cfgHz := rfl
@[simp] theorem csEnter_wMode (s : State) : (csEnter s).wMode = s.wMode := rfl
@[simp] theorem csEnter_wWires (s : State) : (csEnter s).wWires = s.wWires := rfl
@[simp] theorem csEnter_wHz (s : State) : (csEnter s).wHz = s.wHz := rfl
@[simp] theorem csEnter_cfgbyte (s : State) : (csEnter s).cfgbyte = s.cfgbyte := rfl
@[simp] theorem csEnter_rb (s : State) : (csEnter s).rb = s.rb := rfl
@[simp] theorem csEnter_stale (s : State) : (csEnter s).stale = s.stale := rfl
@[simp] theorem csEnter_raw (s : State) : (csEnter s).raw = s.raw := rfl
@[simp] theorem csEnter_fsb (s : State) : (csEnter s).fsb = s.fsb := rfl
@[simp] theorem csEnter_pend (s : State) : (csEnter s).pend = s.pend := rfl
@[simp] theorem csEnter_rspValid (s : State) : (csEnter s).rspValid = s.rspValid := rfl
@[simp] theorem csEnter_rspStatus (s : State) : (csEnter s).rspStatus = s.rspStatus := rfl
@[simp] theorem csEnter_resultValid (s : State) : (csEnter s).resultValid = s.resultValid := rfl
@[simp] theorem csEnter_tempC (s : State) : (csEnter s).tempC = s.tempC := rfl
@[simp] theorem csEnter_tempK (s : State) : (csEnter s).tempK = s.tempK := rfl
@[simp] theorem csEnter_tempF (s : State) : (csEnter s).tempF = s.tempF := rfl
@[simp] theorem csEnter_cmdValid (s : State) : (csEnter s).cmdValid = s.cmdValid := rfl
@[simp] theorem csEnter_cmdWord (s : State) : (csEnter s).cmdWord = s.cmdWord := rfl
@[simp] theorem csEnter_cmd (s : State) : (csEnter s).cmd = s.cmd := rfl
@[simp] theorem csEnter_history (s : State) : (csEnter s).history = s.history ++ [.csE] := rfl
@[simp] theorem csEnter_responses (s : State) : (csEnter s).responses = s.responses := rfl
@[simp] theorem csEnter_devBytes (s : State) : (csEnter s).devBytes = s.devBytes := rfl
@[simp] theorem csEnter_devReadies (s : State) : (csEnter s).devReadies = s.devReadies := rfl
@[simp] theorem csEnter_draws (s : State) : (csEnter s).draws = s.draws := rfl
@[simp] theorem csEnter_agenda (s : State) : (csEnter s).agenda = s.agenda := rfl

/-! ### csLeave -/

@[simp] theorem csLeave_st (s : State) : (csLeave s).st = s.st := rfl
@[simp] theorem csLeave_armed (s : State) : (csLeave s).armed = s.armed := rfl
@[simp] theorem csLeave_ctx (s : State) : (csLeave s).ctx = s.ctx := rfl
@[simp] theorem csLeave_csReq (s : State) : (csLeave s).csReq = false := rfl
@[simp] theorem csLeave_cfgValid (s : State) : (csLeave s).cfgValid = s.cfgValid := rfl
@[simp] theorem csLeave_cfgMode (s : State) : (csLeave s).cfgMode = s.cfgMode := rfl
@[simp] theorem csLeave_cfgWires (s : State) : (csLeave s).cfgWires = s.cfgWires := rfl
@[simp] theorem csLeave_cfgHz (s : State) : (csLeave s).cfgHz = s.cfgHz := rfl
@[simp] theorem csLeave_wMode (s : State) : (csLeave s).wMode = s.wMode := rfl
@[simp] theorem csLeave_wWires (s : State) : (csLeave s).wWires = s.wWires := rfl
@[simp] theorem csLeave_wHz (s : State) : (csLeave s).wHz = s.wHz := rfl
@[simp] theorem csLeave_cfgbyte (s : State) : (csLeave s).cfgbyte = s.cfgbyte := rfl
@[simp] theorem csLeave_rb (s : State) : (csLeave s).rb = s.rb := rfl
@[simp] theorem csLeave_stale (s : State) : (csLeave s).stale = s.stale := rfl
@[simp] theorem csLeave_raw (s : State) : (csLeave s).raw = s.raw := rfl
@[simp] theorem csLeave_fsb (s : State) : (csLeave s).fsb = s.fsb := rfl
@[simp] theorem csLeave_pend (s : State) : (csLeave s).pend = s.pend := rfl
@[simp] theorem csLeave_rspValid (s : State) : (csLeave s).rspValid = s.rspValid := rfl
@[simp] theorem csLeave_rspStatus (s : State) : (csLeave s).rspStatus = s.rspStatus := rfl
@[simp] theorem csLeave_resultValid (s : State) : (csLeave s).resultValid = s.resultValid := rfl
@[simp] theorem csLeave_tempC (s : State) : (csLeave s).tempC = s.tempC := rfl
@[simp] theorem csLeave_tempK (s : State) : (csLeave s).tempK = s.tempK := rfl
@[simp] theorem csLeave_tempF (s : State) : (csLeave s).tempF = s.tempF := rfl
@[simp] theorem csLeave_cmdValid (s : State) : (csLeave s).cmdValid = s.cmdValid := rfl
@[simp] theorem csLeave_cmdWord (s : State) : (csLeave s).cmdWord = s.cmdWord := rfl
@[simp] theorem csLeave_cmd (s : State) : (csLeave s).cmd = s.cmd := rfl
@[simp] theorem csLeave_history (s : State) : (csLeave s).history = s.history ++ [.csL] := rfl
@[simp] theorem csLeave_responses (s : State) : (csLeave s).responses = s.responses := rfl
@[simp] theorem csLeave_devBytes (s : State) : (csLeave s).devBytes = s.devBytes := rfl
@[simp] theorem csLeave_devReadies (s : State) : (csLeave s).devReadies = s.devReadies := rfl
@[simp] theorem csLeave_draws (s : State) : (csLeave s).draws = s.draws := rfl
@[simp] theorem csLeave_agenda (s : State) : (csLeave s).agenda = s.agenda := rfl

/-! ### State.goto -/

@[simp] theorem State.goto_st (s : State) (m : MicroState) : (s.goto m).st = m.code := rfl
@[simp] theorem State.goto_armed (s : State) (m : MicroState) : (s.goto m).armed = s.armed := rfl
@[simp] theorem State.goto_ctx (s : State) (m : MicroState) : (s.goto m).ctx = s.ctx := rfl
@[simp] theorem State.goto_csReq (s : State) (m : MicroState) : (s.goto m).csReq = s.csReq := rfl
@[simp] theorem State.goto_cfgValid (s : State) (m : MicroState) : (s.goto m).cfgValid = s.cfgValid := rfl
@[simp] theorem State.goto_cfgMode (s : State) (m : MicroState) : (s.goto m).cfgMode = s.cfgMode := rfl
@[simp] theorem State.goto_cfgWires (s : State) (m : MicroState) : (s.goto m).cfgWires = s.cfgWires := rfl
@[simp] theorem State.goto_cfgHz (s : State) (m : MicroState) : (s.goto m).cfgHz = s.cfgHz := rfl
@[simp] theorem State.goto_wMode (s : State) (m : MicroState) : (s.goto m).wMode = s.wMode := rfl
@[simp] theorem State.goto_wWires (s : State) (m : MicroState) : (s.goto m).wWires = s.wWires := rfl
@[simp] theorem State.goto_wHz (s : State) (m : MicroState) : (s.goto m).wHz = s.wHz := rfl
@[simp] theorem State.goto_cfgbyte (s : State) (m : MicroState) : (s.goto m).cfgbyte = s.cfgbyte := rfl
@[simp] theorem State.goto_rb (s : State) (m : MicroState) : (s.goto m).rb = s.rb := rfl
@[simp] theorem State.goto_stale (s : State) (m : MicroState) : (s.goto m).stale = s.stale := rfl
@[simp] theorem State.goto_raw (s : State) (m : MicroState) : (s.goto m).raw = s.raw := rfl
@[simp] theorem State.goto_fsb (s : State) (m : MicroState) : (s.goto m).fsb = s.fsb := rfl
@[simp] theorem State.goto_pend (s : State) (m : MicroState) : (s.goto m).pend = s.pend := rfl
@[simp] theorem State.goto_rspValid (s : State) (m : MicroState) : (s.goto m).rspValid = s.rspValid := rfl
@[simp] theorem State.goto_rspStatus (s : State) (m : MicroState) : (s.goto m).rspStatus = s.rspStatus := rfl
@[simp] theorem State.goto_resultValid (s : State) (m : MicroState) : (s.goto m).resultValid = s.resultValid := rfl
@[simp] theorem State.goto_tempC (s : State) (m : MicroState) : (s.goto m).tempC = s.tempC := rfl
@[simp] theorem State.goto_tempK (s : State) (m : MicroState) : (s.goto m).tempK = s.tempK := rfl
@[simp] theorem State.goto_tempF (s : State) (m : MicroState) : (s.goto m).tempF = s.tempF := rfl
@[simp] theorem State.goto_cmdValid (s : State) (m : MicroState) : (s.goto m).cmdValid = s.cmdValid := rfl
@[simp] theorem State.goto_cmdWord (s : State) (m : MicroState) : (s.goto m).cmdWord = s.cmdWord := rfl
@[simp] theorem State.goto_cmd (s : State) (m : MicroState) : (s.goto m).cmd = s.cmd := rfl
@[simp] theorem State.goto_history (s : State) (m : MicroState) : (s.goto m).history = s.history := rfl
@[simp] theorem State.goto_responses (s : State) (m : MicroState) : (s.goto m).responses = s.responses := rfl
@[simp] theorem State.goto_devBytes (s : State) (m : MicroState) : (s.goto m).devBytes = s.devBytes := rfl
@[simp] theorem State.goto_devReadies (s : State) (m : MicroState) : (s.goto m).devReadies = s.devReadies := rfl
@[simp] theorem State.goto_draws (s : State) (m : MicroState) : (s.goto m).draws = s.draws := rfl
@[simp] theorem State.goto_agenda (s : State) (m : MicroState) : (s.goto m).agenda = s.agenda := rfl

/-! ### State.setCfgbyte -/

@[simp] theorem State.setCfgbyte_st (s : State) (b : Byte) : (s.setCfgbyte b).st = s.st := rfl
@[simp] theorem State.setCfgbyte_armed (s : State) (b : Byte) : (s.setCfgbyte b).armed = s.armed := rfl
@[simp] theorem State.setCfgbyte_ctx (s : State) (b : Byte) : (s.setCfgbyte b).ctx = s.ctx := rfl
@[simp] theorem State.setCfgbyte_csReq (s : State) (b : Byte) : (s.setCfgbyte b).csReq = s.csReq := rfl
@[simp] theorem State.setCfgbyte_cfgValid (s : State) (b : Byte) : (s.setCfgbyte b).cfgValid = s.cfgValid := rfl
@[simp] theorem State.setCfgbyte_cfgMode (s : State) (b : Byte) : (s.setCfgbyte b).cfgMode = s.cfgMode := rfl
@[simp] theorem State.setCfgbyte_cfgWires (s : State) (b : Byte) : (s.setCfgbyte b).cfgWires = s.cfgWires := rfl
@[simp] theorem State.setCfgbyte_cfgHz (s : State) (b : Byte) : (s.setCfgbyte b).cfgHz = s.cfgHz := rfl
@[simp] theorem State.setCfgbyte_wMode (s : State) (b : Byte) : (s.setCfgbyte b).wMode = s.wMode := rfl
@[simp] theorem State.setCfgbyte_wWires (s : State) (b : Byte) : (s.setCfgbyte b).wWires = s.wWires := rfl
@[simp] theorem State.setCfgbyte_wHz (s : State) (b : Byte) : (s.setCfgbyte b).wHz = s.wHz := rfl
@[simp] theorem State.setCfgbyte_cfgbyte (s : State) (b : Byte) : (s.setCfgbyte b).cfgbyte = b := rfl
@[simp] theorem State.setCfgbyte_rb (s : State) (b : Byte) : (s.setCfgbyte b).rb = s.rb := rfl
@[simp] theorem State.setCfgbyte_stale (s : State) (b : Byte) : (s.setCfgbyte b).stale = s.stale := rfl
@[simp] theorem State.setCfgbyte_raw (s : State) (b : Byte) : (s.setCfgbyte b).raw = s.raw := rfl
@[simp] theorem State.setCfgbyte_fsb (s : State) (b : Byte) : (s.setCfgbyte b).fsb = s.fsb := rfl
@[simp] theorem State.setCfgbyte_pend (s : State) (b : Byte) : (s.setCfgbyte b).pend = s.pend := rfl
@[simp] theorem State.setCfgbyte_rspValid (s : State) (b : Byte) : (s.setCfgbyte b).rspValid = s.rspValid := rfl
@[simp] theorem State.setCfgbyte_rspStatus (s : State) (b : Byte) : (s.setCfgbyte b).rspStatus = s.rspStatus := rfl
@[simp] theorem State.setCfgbyte_resultValid (s : State) (b : Byte) : (s.setCfgbyte b).resultValid = s.resultValid := rfl
@[simp] theorem State.setCfgbyte_tempC (s : State) (b : Byte) : (s.setCfgbyte b).tempC = s.tempC := rfl
@[simp] theorem State.setCfgbyte_tempK (s : State) (b : Byte) : (s.setCfgbyte b).tempK = s.tempK := rfl
@[simp] theorem State.setCfgbyte_tempF (s : State) (b : Byte) : (s.setCfgbyte b).tempF = s.tempF := rfl
@[simp] theorem State.setCfgbyte_cmdValid (s : State) (b : Byte) : (s.setCfgbyte b).cmdValid = s.cmdValid := rfl
@[simp] theorem State.setCfgbyte_cmdWord (s : State) (b : Byte) : (s.setCfgbyte b).cmdWord = s.cmdWord := rfl
@[simp] theorem State.setCfgbyte_cmd (s : State) (b : Byte) : (s.setCfgbyte b).cmd = s.cmd := rfl
@[simp] theorem State.setCfgbyte_history (s : State) (b : Byte) : (s.setCfgbyte b).history = s.history := rfl
@[simp] theorem State.setCfgbyte_responses (s : State) (b : Byte) : (s.setCfgbyte b).responses = s.responses := rfl
@[simp] theorem State.setCfgbyte_devBytes (s : State) (b : Byte) : (s.setCfgbyte b).devBytes = s.devBytes := rfl
@[simp] theorem State.setCfgbyte_devReadies (s : State) (b : Byte) : (s.setCfgbyte b).devReadies = s.devReadies := rfl
@[simp] theorem State.setCfgbyte_draws (s : State) (b : Byte) : (s.setCfgbyte b).draws = s.draws := rfl
@[simp] theorem State.setCfgbyte_agenda (s : State) (b : Byte) : (s.setCfgbyte b).agenda = s.agenda := rfl

/-! ### State.setRb -/

@[simp] theorem State.setRb_st (s : State) (b : Byte) : (s.setRb b).st = s.st := rfl
@[simp] theorem State.setRb_armed (s : State) (b : Byte) : (s.setRb b).armed = s.armed := rfl
@[simp] theorem State.setRb_ctx (s : State) (b : Byte) : (s.setRb b).ctx = s.ctx := rfl
@[simp] theorem State.setRb_csReq (s : State) (b : Byte) : (s.setRb b).csReq = s.csReq := rfl
@[simp] theorem State.setRb_cfgValid (s : State) (b : Byte) : (s.setRb b).cfgValid = s.cfgValid := rfl
@[simp] theorem State.setRb_cfgMode (s : State) (b : Byte) : (s.setRb b).cfgMode = s.cfgMode := rfl
@[simp] theorem State.setRb_cfgWires (s : State) (b : Byte) : (s.setRb b).cfgWires = s.cfgWires := rfl
@[simp] theorem State.setRb_cfgHz (s : State) (b : Byte) : (s.setRb b).cfgHz = s.cfgHz := rfl
@[simp] theorem State.setRb_wMode (s : State) (b : Byte) : (s.setRb b).wMode = s.wMode := rfl
@[simp] theorem State.setRb_wWires (s : State) (b : Byte) : (s.setRb b).wWires = s.wWires := rfl
@[simp] theorem State.setRb_wHz (s : State) (b : Byte) : (s.setRb b).wHz = s.wHz := rfl
@[simp] theorem State.setRb_cfgbyte (s : State) (b : Byte) : (s.setRb b).cfgbyte = s.cfgbyte := rfl
@[simp] theorem State.setRb_rb (s : State) (b : Byte) : (s.setRb b).rb = b := rfl
@[simp] theorem State.setRb_stale (s : State) (b : Byte) : (s.setRb b).stale = s.stale := rfl
@[simp] theorem State.setRb_raw (s : State) (b : Byte) : (s.setRb b).raw = s.raw := rfl
@[simp] theorem State.setRb_fsb (s : State) (b : Byte) : (s.setRb b).fsb = s.fsb := rfl
@[simp] theorem State.setRb_pend (s : State) (b : Byte) : (s.setRb b).pend = s.pend := rfl
@[simp] theorem State.setRb_rspValid (s : State) (b : Byte) : (s.setRb b).rspValid = s.rspValid := rfl
@[simp] theorem State.setRb_rspStatus (s : State) (b : Byte) : (s.setRb b).rspStatus = s.rspStatus := rfl
@[simp] theorem State.setRb_resultValid (s : State) (b : Byte) : (s.setRb b).resultValid = s.resultValid := rfl
@[simp] theorem State.setRb_tempC (s : State) (b : Byte) : (s.setRb b).tempC = s.tempC := rfl
@[simp] theorem State.setRb_tempK (s : State) (b : Byte) : (s.setRb b).tempK = s.tempK := rfl
@[simp] theorem State.setRb_tempF (s : State) (b : Byte) : (s.setRb b).tempF = s.tempF := rfl
@[simp] theorem State.setRb_cmdValid (s : State) (b : Byte) : (s.setRb b).cmdValid = s.cmdValid := rfl
@[simp] theorem State.setRb_cmdWord (s : State) (b : Byte) : (s.setRb b).cmdWord = s.cmdWord := rfl
@[simp] theorem State.setRb_cmd (s : State) (b : Byte) : (s.setRb b).cmd = s.cmd := rfl
@[simp] theorem State.setRb_history (s : State) (b : Byte) : (s.setRb b).history = s.history := rfl
@[simp] theorem State.setRb_responses (s : State) (b : Byte) : (s.setRb b).responses = s.responses := rfl
@[simp] theorem State.setRb_devBytes (s : State) (b : Byte) : (s.setRb b).devBytes = s.devBytes := rfl
@[simp] theorem State.setRb_devReadies (s : State) (b : Byte) : (s.setRb b).devReadies = s.devReadies := rfl
@[simp] theorem State.setRb_draws (s : State) (b : Byte) : (s.setRb b).draws = s.draws := rfl
@[simp] theorem State.setRb_agenda (s : State) (b : Byte) : (s.setRb b).agenda = s.agenda := rfl

/-! ### State.setStale -/

@[simp] theorem State.setStale_st (s : State) (b : Bool) : (s.setStale b).st = s.st := rfl
@[simp] theorem State.setStale_armed (s : State) (b : Bool) : (s.setStale b).armed = s.armed := rfl
@[simp] theorem State.setStale_ctx (s : State) (b : Bool) : (s.setStale b).ctx = s.ctx := rfl
@[simp] theorem State.setStale_csReq (s : State) (b : Bool) : (s.setStale b).csReq = s.csReq := rfl
@[simp] theorem State.setStale_cfgValid (s : State) (b : Bool) : (s.setStale b).cfgValid = s.cfgValid := rfl
@[simp] theorem State.setStale_cfgMode (s : State) (b : Bool) : (s.setStale b).cfgMode = s.cfgMode := rfl
@[simp] theorem State.setStale_cfgWires (s : State) (b : Bool) : (s.setStale b).cfgWires = s.cfgWires := rfl
@[simp] theorem State.setStale_cfgHz (s : State) (b : Bool) : (s.setStale b).cfgHz = s.cfgHz := rfl
@[simp] theorem State.setStale_wMode (s : State) (b : Bool) : (s.setStale b).wMode = s.wMode := rfl
@[simp] theorem State.setStale_wWires (s : State) (b : Bool) : (s.setStale b).wWires = s.wWires := rfl
@[simp] theorem State.setStale_wHz (s : State) (b : Bool) : (s.setStale b).wHz = s.wHz := rfl
@[simp] theorem State.setStale_cfgbyte (s : State) (b : Bool) : (s.setStale b).cfgbyte = s.cfgbyte := rfl
@[simp] theorem State.setStale_rb (s : State) (b : Bool) : (s.setStale b).rb = s.rb := rfl
@[simp] theorem State.setStale_stale (s : State) (b : Bool) : (s.setStale b).stale = b := rfl
@[simp] theorem State.setStale_raw (s : State) (b : Bool) : (s.setStale b).raw = s.raw := rfl
@[simp] theorem State.setStale_fsb (s : State) (b : Bool) : (s.setStale b).fsb = s.fsb := rfl
@[simp] theorem State.setStale_pend (s : State) (b : Bool) : (s.setStale b).pend = s.pend := rfl
@[simp] theorem State.setStale_rspValid (s : State) (b : Bool) : (s.setStale b).rspValid = s.rspValid := rfl
@[simp] theorem State.setStale_rspStatus (s : State) (b : Bool) : (s.setStale b).rspStatus = s.rspStatus := rfl
@[simp] theorem State.setStale_resultValid (s : State) (b : Bool) : (s.setStale b).resultValid = s.resultValid := rfl
@[simp] theorem State.setStale_tempC (s : State) (b : Bool) : (s.setStale b).tempC = s.tempC := rfl
@[simp] theorem State.setStale_tempK (s : State) (b : Bool) : (s.setStale b).tempK = s.tempK := rfl
@[simp] theorem State.setStale_tempF (s : State) (b : Bool) : (s.setStale b).tempF = s.tempF := rfl
@[simp] theorem State.setStale_cmdValid (s : State) (b : Bool) : (s.setStale b).cmdValid = s.cmdValid := rfl
@[simp] theorem State.setStale_cmdWord (s : State) (b : Bool) : (s.setStale b).cmdWord = s.cmdWord := rfl
@[simp] theorem State.setStale_cmd (s : State) (b : Bool) : (s.setStale b).cmd = s.cmd := rfl
@[simp] theorem State.setStale_history (s : State) (b : Bool) : (s.setStale b).history = s.history := rfl
@[simp] theorem State.setStale_responses (s : State) (b : Bool) : (s.setStale b).responses = s.responses := rfl
@[simp] theorem State.setStale_devBytes (s : State) (b : Bool) : (s.setStale b).devBytes = s.devBytes := rfl
@[simp] theorem State.setStale_devReadies (s : State) (b : Bool) : (s.setStale b).devReadies = s.devReadies := rfl
@[simp] theorem State.setStale_draws (s : State) (b : Bool) : (s.setStale b).draws = s.draws := rfl
@[simp] theorem State.setStale_agenda (s : State) (b : Bool) : (s.setStale b).agenda = s.agenda := rfl

/-! ### State.setRaw -/

@[simp] theorem State.setRaw_st (s : State) (v : BitVec 16) : (s.setRaw v).st = s.st := rfl
@[simp] theorem State.setRaw_armed (s : State) (v : BitVec 16) : (s.setRaw v).armed = s.armed := rfl
@[simp] theorem State.setRaw_ctx (s : State) (v : BitVec 16) : (s.setRaw v).ctx = s.ctx := rfl
@[simp] theorem State.setRaw_csReq (s : State) (v : BitVec 16) : (s.setRaw v).csReq = s.csReq := rfl
@[simp] theorem State.setRaw_cfgValid (s : State) (v : BitVec 16) : (s.setRaw v).cfgValid = s.cfgValid := rfl
@[simp] theorem State.setRaw_cfgMode (s : State) (v : BitVec 16) : (s.setRaw v).cfgMode = s.cfgMode := rfl
@[simp] theorem State.setRaw_cfgWires (s : State) (v : BitVec 16) : (s.setRaw v).cfgWires = s.cfgWires := rfl
@[simp] theorem State.setRaw_cfgHz (s : State) (v : BitVec 16) : (s.setRaw v).cfgHz = s.cfgHz := rfl
@[simp] theorem State.setRaw_wMode (s : State) (v : BitVec 16) : (s.setRaw v).wMode = s.wMode := rfl
@[simp] theorem State.setRaw_wWires (s : State) (v : BitVec 16) : (s.setRaw v).wWires = s.wWires := rfl
@[simp] theorem State.setRaw_wHz (s : State) (v : BitVec 16) : (s.setRaw v).wHz = s.wHz := rfl
@[simp] theorem State.setRaw_cfgbyte (s : State) (v : BitVec 16) : (s.setRaw v).cfgbyte = s.cfgbyte := rfl
@[simp] theorem State.setRaw_rb (s : State) (v : BitVec 16) : (s.setRaw v).rb = s.rb := rfl
@[simp] theorem State.setRaw_stale (s : State) (v : BitVec 16) : (s.setRaw v).stale = s.stale := rfl
@[simp] theorem State.setRaw_raw (s : State) (v : BitVec 16) : (s.setRaw v).raw = v := rfl
@[simp] theorem State.setRaw_fsb (s : State) (v : BitVec 16) : (s.setRaw v).fsb = s.fsb := rfl
@[simp] theorem State.setRaw_pend (s : State) (v : BitVec 16) : (s.setRaw v).pend = s.pend := rfl
@[simp] theorem State.setRaw_rspValid (s : State) (v : BitVec 16) : (s.setRaw v).rspValid = s.rspValid := rfl
@[simp] theorem State.setRaw_rspStatus (s : State) (v : BitVec 16) : (s.setRaw v).rspStatus = s.rspStatus := rfl
@[simp] theorem State.setRaw_resultValid (s : State) (v : BitVec 16) : (s.setRaw v).resultValid = s.resultValid := rfl
@[simp] theorem State.setRaw_tempC (s : State) (v : BitVec 16) : (s.setRaw v).tempC = s.tempC := rfl
@[simp] theorem State.setRaw_tempK (s : State) (v : BitVec 16) : (s.setRaw v).tempK = s.tempK := rfl
@[simp] theorem State.setRaw_tempF (s : State) (v : BitVec 16) : (s.setRaw v).tempF = s.tempF := rfl
@[simp] theorem State.setRaw_cmdValid (s : State) (v : BitVec 16) : (s.setRaw v).cmdValid = s.cmdValid := rfl
@[simp] theorem State.setRaw_cmdWord (s : State) (v : BitVec 16) : (s.setRaw v).cmdWord = s.cmdWord := rfl
@[simp] theorem State.setRaw_cmd (s : State) (v : BitVec 16) : (s.setRaw v).cmd = s.cmd := rfl
@[simp] theorem State.setRaw_history (s : State) (v : BitVec 16) : (s.setRaw v).history = s.history := rfl
@[simp] theorem State.setRaw_responses (s : State) (v : BitVec 16) : (s.setRaw v).responses = s.responses := rfl
@[simp] theorem State.setRaw_devBytes (s : State) (v : BitVec 16) : (s.setRaw v).devBytes = s.devBytes := rfl
@[simp] theorem State.setRaw_devReadies (s : State) (v : BitVec 16) : (s.setRaw v).devReadies = s.devReadies := rfl
@[simp] theorem State.setRaw_draws (s : State) (v : BitVec 16) : (s.setRaw v).draws = s.draws := rfl
@[simp] theorem State.setRaw_agenda (s : State) (v : BitVec 16) : (s.setRaw v).agenda = s.agenda := rfl

/-! ### State.clearCtx -/

@[simp] theorem State.clearCtx_st (s : State) : s.clearCtx.st = s.st := rfl
@[simp] theorem State.clearCtx_armed (s : State) : s.clearCtx.armed = s.armed := rfl
@[simp] theorem State.clearCtx_ctx (s : State) : s.clearCtx.ctx = false := rfl
@[simp] theorem State.clearCtx_csReq (s : State) : s.clearCtx.csReq = s.csReq := rfl
@[simp] theorem State.clearCtx_cfgValid (s : State) : s.clearCtx.cfgValid = s.cfgValid := rfl
@[simp] theorem State.clearCtx_cfgMode (s : State) : s.clearCtx.cfgMode = s.cfgMode := rfl
@[simp] theorem State.clearCtx_cfgWires (s : State) : s.clearCtx.cfgWires = s.cfgWires := rfl
@[simp] theorem State.clearCtx_cfgHz (s : State) : s.clearCtx.cfgHz = s.cfgHz := rfl
@[simp] theorem State.clearCtx_wMode (s : State) : s.clearCtx.wMode = s.wMode := rfl
@[simp] theorem State.clearCtx_wWires (s : State) : s.clearCtx.wWires = s.wWires := rfl
@[simp] theorem State.clearCtx_wHz (s : State) : s.clearCtx.wHz = s.wHz := rfl
@[simp] theorem State.clearCtx_cfgbyte (s : State) : s.clearCtx.cfgbyte = s.cfgbyte := rfl
@[simp] theorem State.clearCtx_rb (s : State) : s.clearCtx.rb = s.rb := rfl
@[simp] theorem State.clearCtx_stale (s : State) : s.clearCtx.stale = s.stale := rfl
@[simp] theorem State.clearCtx_raw (s : State) : s.clearCtx.raw = s.raw := rfl
@[simp] theorem State.clearCtx_fsb (s : State) : s.clearCtx.fsb = s.fsb := rfl
@[simp] theorem State.clearCtx_pend (s : State) : s.clearCtx.pend = s.pend := rfl
@[simp] theorem State.clearCtx_rspValid (s : State) : s.clearCtx.rspValid = s.rspValid := rfl
@[simp] theorem State.clearCtx_rspStatus (s : State) : s.clearCtx.rspStatus = s.rspStatus := rfl
@[simp] theorem State.clearCtx_resultValid (s : State) : s.clearCtx.resultValid = s.resultValid := rfl
@[simp] theorem State.clearCtx_tempC (s : State) : s.clearCtx.tempC = s.tempC := rfl
@[simp] theorem State.clearCtx_tempK (s : State) : s.clearCtx.tempK = s.tempK := rfl
@[simp] theorem State.clearCtx_tempF (s : State) : s.clearCtx.tempF = s.tempF := rfl
@[simp] theorem State.clearCtx_cmdValid (s : State) : s.clearCtx.cmdValid = s.cmdValid := rfl
@[simp] theorem State.clearCtx_cmdWord (s : State) : s.clearCtx.cmdWord = s.cmdWord := rfl
@[simp] theorem State.clearCtx_cmd (s : State) : s.clearCtx.cmd = s.cmd := rfl
@[simp] theorem State.clearCtx_history (s : State) : s.clearCtx.history = s.history := rfl
@[simp] theorem State.clearCtx_responses (s : State) : s.clearCtx.responses = s.responses := rfl
@[simp] theorem State.clearCtx_devBytes (s : State) : s.clearCtx.devBytes = s.devBytes := rfl
@[simp] theorem State.clearCtx_devReadies (s : State) : s.clearCtx.devReadies = s.devReadies := rfl
@[simp] theorem State.clearCtx_draws (s : State) : s.clearCtx.draws = s.draws := rfl
@[simp] theorem State.clearCtx_agenda (s : State) : s.clearCtx.agenda = s.agenda := rfl

/-! ### State.saveFault -/

@[simp] theorem State.saveFault_st (s : State) (fs : Byte) : (s.saveFault fs).st = s.st := rfl
@[simp] theorem State.saveFault_armed (s : State) (fs : Byte) : (s.saveFault fs).armed = s.armed := rfl
@[simp] theorem State.saveFault_ctx (s : State) (fs : Byte) : (s.saveFault fs).ctx = s.ctx := rfl
@[simp] theorem State.saveFault_csReq (s : State) (fs : Byte) : (s.saveFault fs).csReq = s.csReq := rfl
@[simp] theorem State.saveFault_cfgValid (s : State) (fs : Byte) : (s.saveFault fs).cfgValid = s.cfgValid := rfl
@[simp] theorem State.saveFault_cfgMode (s : State) (fs : Byte) : (s.saveFault fs).cfgMode = s.cfgMode := rfl
@[simp] theorem State.saveFault_cfgWires (s : State) (fs : Byte) : (s.saveFault fs).cfgWires = s.cfgWires := rfl
@[simp] theorem State.saveFault_cfgHz (s : State) (fs : Byte) : (s.saveFault fs).cfgHz = s.cfgHz := rfl
@[simp] theorem State.saveFault_wMode (s : State) (fs : Byte) : (s.saveFault fs).wMode = s.wMode := rfl
@[simp] theorem State.saveFault_wWires (s : State) (fs : Byte) : (s.saveFault fs).wWires = s.wWires := rfl
@[simp] theorem State.saveFault_wHz (s : State) (fs : Byte) : (s.saveFault fs).wHz = s.wHz := rfl
@[simp] theorem State.saveFault_cfgbyte (s : State) (fs : Byte) : (s.saveFault fs).cfgbyte = s.cfgbyte := rfl
@[simp] theorem State.saveFault_rb (s : State) (fs : Byte) : (s.saveFault fs).rb = s.rb := rfl
@[simp] theorem State.saveFault_stale (s : State) (fs : Byte) : (s.saveFault fs).stale = s.stale := rfl
@[simp] theorem State.saveFault_raw (s : State) (fs : Byte) : (s.saveFault fs).raw = s.raw := rfl
@[simp] theorem State.saveFault_fsb (s : State) (fs : Byte) : (s.saveFault fs).fsb = fs := rfl
@[simp] theorem State.saveFault_pend (s : State) (fs : Byte) : (s.saveFault fs).pend = (classify fs).code := rfl
@[simp] theorem State.saveFault_rspValid (s : State) (fs : Byte) : (s.saveFault fs).rspValid = s.rspValid := rfl
@[simp] theorem State.saveFault_rspStatus (s : State) (fs : Byte) : (s.saveFault fs).rspStatus = s.rspStatus := rfl
@[simp] theorem State.saveFault_resultValid (s : State) (fs : Byte) : (s.saveFault fs).resultValid = s.resultValid := rfl
@[simp] theorem State.saveFault_tempC (s : State) (fs : Byte) : (s.saveFault fs).tempC = s.tempC := rfl
@[simp] theorem State.saveFault_tempK (s : State) (fs : Byte) : (s.saveFault fs).tempK = s.tempK := rfl
@[simp] theorem State.saveFault_tempF (s : State) (fs : Byte) : (s.saveFault fs).tempF = s.tempF := rfl
@[simp] theorem State.saveFault_cmdValid (s : State) (fs : Byte) : (s.saveFault fs).cmdValid = s.cmdValid := rfl
@[simp] theorem State.saveFault_cmdWord (s : State) (fs : Byte) : (s.saveFault fs).cmdWord = s.cmdWord := rfl
@[simp] theorem State.saveFault_cmd (s : State) (fs : Byte) : (s.saveFault fs).cmd = s.cmd := rfl
@[simp] theorem State.saveFault_history (s : State) (fs : Byte) : (s.saveFault fs).history = s.history := rfl
@[simp] theorem State.saveFault_responses (s : State) (fs : Byte) : (s.saveFault fs).responses = s.responses := rfl
@[simp] theorem State.saveFault_devBytes (s : State) (fs : Byte) : (s.saveFault fs).devBytes = s.devBytes := rfl
@[simp] theorem State.saveFault_devReadies (s : State) (fs : Byte) : (s.saveFault fs).devReadies = s.devReadies := rfl
@[simp] theorem State.saveFault_draws (s : State) (fs : Byte) : (s.saveFault fs).draws = s.draws := rfl
@[simp] theorem State.saveFault_agenda (s : State) (fs : Byte) : (s.saveFault fs).agenda = s.agenda := rfl

/-! ### takeCommand -/

@[simp] theorem takeCommand_st (s : State) : (takeCommand s).st = s.st := rfl
@[simp] theorem takeCommand_armed (s : State) : (takeCommand s).armed = s.armed := rfl
@[simp] theorem takeCommand_ctx (s : State) : (takeCommand s).ctx = s.ctx := rfl
@[simp] theorem takeCommand_csReq (s : State) : (takeCommand s).csReq = s.csReq := rfl
@[simp] theorem takeCommand_cfgValid (s : State) : (takeCommand s).cfgValid = s.cfgValid := rfl
@[simp] theorem takeCommand_cfgMode (s : State) : (takeCommand s).cfgMode = s.cfgMode := rfl
@[simp] theorem takeCommand_cfgWires (s : State) : (takeCommand s).cfgWires = s.cfgWires := rfl
@[simp] theorem takeCommand_cfgHz (s : State) : (takeCommand s).cfgHz = s.cfgHz := rfl
@[simp] theorem takeCommand_wMode (s : State) : (takeCommand s).wMode = s.wMode := rfl
@[simp] theorem takeCommand_wWires (s : State) : (takeCommand s).wWires = s.wWires := rfl
@[simp] theorem takeCommand_wHz (s : State) : (takeCommand s).wHz = s.wHz := rfl
@[simp] theorem takeCommand_cfgbyte (s : State) : (takeCommand s).cfgbyte = s.cfgbyte := rfl
@[simp] theorem takeCommand_rb (s : State) : (takeCommand s).rb = s.rb := rfl
@[simp] theorem takeCommand_stale (s : State) : (takeCommand s).stale = s.stale := rfl
@[simp] theorem takeCommand_raw (s : State) : (takeCommand s).raw = s.raw := rfl
@[simp] theorem takeCommand_fsb (s : State) : (takeCommand s).fsb = s.fsb := rfl
@[simp] theorem takeCommand_pend (s : State) : (takeCommand s).pend = s.pend := rfl
@[simp] theorem takeCommand_rspValid (s : State) : (takeCommand s).rspValid = s.rspValid := rfl
@[simp] theorem takeCommand_rspStatus (s : State) : (takeCommand s).rspStatus = s.rspStatus := rfl
@[simp] theorem takeCommand_resultValid (s : State) : (takeCommand s).resultValid = s.resultValid := rfl
@[simp] theorem takeCommand_tempC (s : State) : (takeCommand s).tempC = s.tempC := rfl
@[simp] theorem takeCommand_tempK (s : State) : (takeCommand s).tempK = s.tempK := rfl
@[simp] theorem takeCommand_tempF (s : State) : (takeCommand s).tempF = s.tempF := rfl
@[simp] theorem takeCommand_cmdValid (s : State) : (takeCommand s).cmdValid = false := rfl
@[simp] theorem takeCommand_cmdWord (s : State) : (takeCommand s).cmdWord = s.cmdWord := rfl
@[simp] theorem takeCommand_cmd (s : State) : (takeCommand s).cmd = some s.cmdWord := rfl
@[simp] theorem takeCommand_history (s : State) : (takeCommand s).history = s.history := rfl
@[simp] theorem takeCommand_responses (s : State) : (takeCommand s).responses = s.responses := rfl
@[simp] theorem takeCommand_devBytes (s : State) : (takeCommand s).devBytes = s.devBytes := rfl
@[simp] theorem takeCommand_devReadies (s : State) : (takeCommand s).devReadies = s.devReadies := rfl
@[simp] theorem takeCommand_draws (s : State) : (takeCommand s).draws = s.draws := rfl
@[simp] theorem takeCommand_agenda (s : State) : (takeCommand s).agenda = s.agenda := rfl

/-! ### clearResponse -/

@[simp] theorem clearResponse_st (s : State) : (clearResponse s).st = s.st := rfl
@[simp] theorem clearResponse_armed (s : State) : (clearResponse s).armed = s.armed := rfl
@[simp] theorem clearResponse_ctx (s : State) : (clearResponse s).ctx = s.ctx := rfl
@[simp] theorem clearResponse_csReq (s : State) : (clearResponse s).csReq = s.csReq := rfl
@[simp] theorem clearResponse_cfgValid (s : State) : (clearResponse s).cfgValid = s.cfgValid := rfl
@[simp] theorem clearResponse_cfgMode (s : State) : (clearResponse s).cfgMode = s.cfgMode := rfl
@[simp] theorem clearResponse_cfgWires (s : State) : (clearResponse s).cfgWires = s.cfgWires := rfl
@[simp] theorem clearResponse_cfgHz (s : State) : (clearResponse s).cfgHz = s.cfgHz := rfl
@[simp] theorem clearResponse_wMode (s : State) : (clearResponse s).wMode = s.wMode := rfl
@[simp] theorem clearResponse_wWires (s : State) : (clearResponse s).wWires = s.wWires := rfl
@[simp] theorem clearResponse_wHz (s : State) : (clearResponse s).wHz = s.wHz := rfl
@[simp] theorem clearResponse_cfgbyte (s : State) : (clearResponse s).cfgbyte = s.cfgbyte := rfl
@[simp] theorem clearResponse_rb (s : State) : (clearResponse s).rb = s.rb := rfl
@[simp] theorem clearResponse_stale (s : State) : (clearResponse s).stale = s.stale := rfl
@[simp] theorem clearResponse_raw (s : State) : (clearResponse s).raw = s.raw := rfl
@[simp] theorem clearResponse_fsb (s : State) : (clearResponse s).fsb = s.fsb := rfl
@[simp] theorem clearResponse_pend (s : State) : (clearResponse s).pend = s.pend := rfl
@[simp] theorem clearResponse_rspValid (s : State) : (clearResponse s).rspValid = false := rfl
@[simp] theorem clearResponse_rspStatus (s : State) : (clearResponse s).rspStatus = s.rspStatus := rfl
@[simp] theorem clearResponse_resultValid (s : State) : (clearResponse s).resultValid = false := rfl
@[simp] theorem clearResponse_tempC (s : State) : (clearResponse s).tempC = s.tempC := rfl
@[simp] theorem clearResponse_tempK (s : State) : (clearResponse s).tempK = s.tempK := rfl
@[simp] theorem clearResponse_tempF (s : State) : (clearResponse s).tempF = s.tempF := rfl
@[simp] theorem clearResponse_cmdValid (s : State) : (clearResponse s).cmdValid = s.cmdValid := rfl
@[simp] theorem clearResponse_cmdWord (s : State) : (clearResponse s).cmdWord = s.cmdWord := rfl
@[simp] theorem clearResponse_cmd (s : State) : (clearResponse s).cmd = s.cmd := rfl
@[simp] theorem clearResponse_history (s : State) : (clearResponse s).history = s.history := rfl
@[simp] theorem clearResponse_responses (s : State) : (clearResponse s).responses = s.responses := rfl
@[simp] theorem clearResponse_devBytes (s : State) : (clearResponse s).devBytes = s.devBytes := rfl
@[simp] theorem clearResponse_devReadies (s : State) : (clearResponse s).devReadies = s.devReadies := rfl
@[simp] theorem clearResponse_draws (s : State) : (clearResponse s).draws = s.draws := rfl
@[simp] theorem clearResponse_agenda (s : State) : (clearResponse s).agenda = s.agenda := rfl

/-! ### complete -/

@[simp] theorem complete_st (c : BitVec 4) (r : Bool) (s : State) : (complete c r s).st = MicroState.code .idle := rfl
@[simp] theorem complete_armed (c : BitVec 4) (r : Bool) (s : State) : (complete c r s).armed = s.armed := rfl
@[simp] theorem complete_ctx (c : BitVec 4) (r : Bool) (s : State) : (complete c r s).ctx = s.ctx := rfl
@[simp] theorem complete_csReq (c : BitVec 4) (r : Bool) (s : State) : (complete c r s).csReq = s.csReq := rfl
@[simp] theorem complete_cfgValid (c : BitVec 4) (r : Bool) (s : State) : (complete c r s).cfgValid = s.cfgValid := rfl
@[simp] theorem complete_cfgMode (c : BitVec 4) (r : Bool) (s : State) : (complete c r s).cfgMode = s.cfgMode := rfl
@[simp] theorem complete_cfgWires (c : BitVec 4) (r : Bool) (s : State) : (complete c r s).cfgWires = s.cfgWires := rfl
@[simp] theorem complete_cfgHz (c : BitVec 4) (r : Bool) (s : State) : (complete c r s).cfgHz = s.cfgHz := rfl
@[simp] theorem complete_wMode (c : BitVec 4) (r : Bool) (s : State) : (complete c r s).wMode = s.wMode := rfl
@[simp] theorem complete_wWires (c : BitVec 4) (r : Bool) (s : State) : (complete c r s).wWires = s.wWires := rfl
@[simp] theorem complete_wHz (c : BitVec 4) (r : Bool) (s : State) : (complete c r s).wHz = s.wHz := rfl
@[simp] theorem complete_cfgbyte (c : BitVec 4) (r : Bool) (s : State) : (complete c r s).cfgbyte = s.cfgbyte := rfl
@[simp] theorem complete_rb (c : BitVec 4) (r : Bool) (s : State) : (complete c r s).rb = s.rb := rfl
@[simp] theorem complete_stale (c : BitVec 4) (r : Bool) (s : State) : (complete c r s).stale = s.stale := rfl
@[simp] theorem complete_raw (c : BitVec 4) (r : Bool) (s : State) : (complete c r s).raw = s.raw := rfl
@[simp] theorem complete_fsb (c : BitVec 4) (r : Bool) (s : State) : (complete c r s).fsb = s.fsb := rfl
@[simp] theorem complete_pend (c : BitVec 4) (r : Bool) (s : State) : (complete c r s).pend = s.pend := rfl
@[simp] theorem complete_rspValid (c : BitVec 4) (r : Bool) (s : State) : (complete c r s).rspValid = true := rfl
@[simp] theorem complete_rspStatus (c : BitVec 4) (r : Bool) (s : State) : (complete c r s).rspStatus = c := rfl
@[simp] theorem complete_resultValid (c : BitVec 4) (r : Bool) (s : State) : (complete c r s).resultValid = r := rfl
@[simp] theorem complete_tempC (c : BitVec 4) (r : Bool) (s : State) : (complete c r s).tempC = s.tempC := rfl
@[simp] theorem complete_tempK (c : BitVec 4) (r : Bool) (s : State) : (complete c r s).tempK = s.tempK := rfl
@[simp] theorem complete_tempF (c : BitVec 4) (r : Bool) (s : State) : (complete c r s).tempF = s.tempF := rfl
@[simp] theorem complete_cmdValid (c : BitVec 4) (r : Bool) (s : State) : (complete c r s).cmdValid = s.cmdValid := rfl
@[simp] theorem complete_cmdWord (c : BitVec 4) (r : Bool) (s : State) : (complete c r s).cmdWord = s.cmdWord := rfl
@[simp] theorem complete_cmd (c : BitVec 4) (r : Bool) (s : State) : (complete c r s).cmd = none := rfl
@[simp] theorem complete_history (c : BitVec 4) (r : Bool) (s : State) : (complete c r s).history = s.history := rfl
@[simp] theorem complete_responses (c : BitVec 4) (r : Bool) (s : State) : (complete c r s).responses = s.responses ++ [⟨c, r, s.tempC, s.tempK, s.tempF⟩] := rfl
@[simp] theorem complete_devBytes (c : BitVec 4) (r : Bool) (s : State) : (complete c r s).devBytes = s.devBytes := rfl
@[simp] theorem complete_devReadies (c : BitVec 4) (r : Bool) (s : State) : (complete c r s).devReadies = s.devReadies := rfl
@[simp] theorem complete_draws (c : BitVec 4) (r : Bool) (s : State) : (complete c r s).draws = s.draws := rfl
@[simp] theorem complete_agenda (c : BitVec 4) (r : Bool) (s : State) : (complete c r s).agenda = s.agenda := rfl

/-! ### enterConfiguring -/

@[simp] theorem enterConfiguring_st (m : BitVec 2) (w h : Byte) (r : Bool) (s : State) : (enterConfiguring m w h r s).st = MicroState.code .cP1CsEnter := rfl
@[simp] theorem enterConfiguring_armed (m : BitVec 2) (w h : Byte) (r : Bool) (s : State) : (enterConfiguring m w h r s).armed = false := rfl
@[simp] theorem enterConfiguring_ctx (m : BitVec 2) (w h : Byte) (r : Bool) (s : State) : (enterConfiguring m w h r s).ctx = r := rfl
@[simp] theorem enterConfiguring_csReq (m : BitVec 2) (w h : Byte) (r : Bool) (s : State) : (enterConfiguring m w h r s).csReq = s.csReq := rfl
@[simp] theorem enterConfiguring_cfgValid (m : BitVec 2) (w h : Byte) (r : Bool) (s : State) : (enterConfiguring m w h r s).cfgValid = s.cfgValid := rfl
@[simp] theorem enterConfiguring_cfgMode (m : BitVec 2) (w h : Byte) (r : Bool) (s : State) : (enterConfiguring m w h r s).cfgMode = s.cfgMode := rfl
@[simp] theorem enterConfiguring_cfgWires (m : BitVec 2) (w h : Byte) (r : Bool) (s : State) : (enterConfiguring m w h r s).cfgWires = s.cfgWires := rfl
@[simp] theorem enterConfiguring_cfgHz (m : BitVec 2) (w h : Byte) (r : Bool) (s : State) : (enterConfiguring m w h r s).cfgHz = s.cfgHz := rfl
@[simp] theorem enterConfiguring_wMode (m : BitVec 2) (w h : Byte) (r : Bool) (s : State) : (enterConfiguring m w h r s).wMode = m := rfl
@[simp] theorem enterConfiguring_wWires (m : BitVec 2) (w h : Byte) (r : Bool) (s : State) : (enterConfiguring m w h r s).wWires = w := rfl
@[simp] theorem enterConfiguring_wHz (m : BitVec 2) (w h : Byte) (r : Bool) (s : State) : (enterConfiguring m w h r s).wHz = h := rfl
@[simp] theorem enterConfiguring_cfgbyte (m : BitVec 2) (w h : Byte) (r : Bool) (s : State) : (enterConfiguring m w h r s).cfgbyte = s.cfgbyte := rfl
@[simp] theorem enterConfiguring_rb (m : BitVec 2) (w h : Byte) (r : Bool) (s : State) : (enterConfiguring m w h r s).rb = s.rb := rfl
@[simp] theorem enterConfiguring_stale (m : BitVec 2) (w h : Byte) (r : Bool) (s : State) : (enterConfiguring m w h r s).stale = s.stale := rfl
@[simp] theorem enterConfiguring_raw (m : BitVec 2) (w h : Byte) (r : Bool) (s : State) : (enterConfiguring m w h r s).raw = s.raw := rfl
@[simp] theorem enterConfiguring_fsb (m : BitVec 2) (w h : Byte) (r : Bool) (s : State) : (enterConfiguring m w h r s).fsb = s.fsb := rfl
@[simp] theorem enterConfiguring_pend (m : BitVec 2) (w h : Byte) (r : Bool) (s : State) : (enterConfiguring m w h r s).pend = s.pend := rfl
@[simp] theorem enterConfiguring_rspValid (m : BitVec 2) (w h : Byte) (r : Bool) (s : State) : (enterConfiguring m w h r s).rspValid = s.rspValid := rfl
@[simp] theorem enterConfiguring_rspStatus (m : BitVec 2) (w h : Byte) (r : Bool) (s : State) : (enterConfiguring m w h r s).rspStatus = s.rspStatus := rfl
@[simp] theorem enterConfiguring_resultValid (m : BitVec 2) (w h : Byte) (r : Bool) (s : State) : (enterConfiguring m w h r s).resultValid = s.resultValid := rfl
@[simp] theorem enterConfiguring_tempC (m : BitVec 2) (w h : Byte) (r : Bool) (s : State) : (enterConfiguring m w h r s).tempC = s.tempC := rfl
@[simp] theorem enterConfiguring_tempK (m : BitVec 2) (w h : Byte) (r : Bool) (s : State) : (enterConfiguring m w h r s).tempK = s.tempK := rfl
@[simp] theorem enterConfiguring_tempF (m : BitVec 2) (w h : Byte) (r : Bool) (s : State) : (enterConfiguring m w h r s).tempF = s.tempF := rfl
@[simp] theorem enterConfiguring_cmdValid (m : BitVec 2) (w h : Byte) (r : Bool) (s : State) : (enterConfiguring m w h r s).cmdValid = s.cmdValid := rfl
@[simp] theorem enterConfiguring_cmdWord (m : BitVec 2) (w h : Byte) (r : Bool) (s : State) : (enterConfiguring m w h r s).cmdWord = s.cmdWord := rfl
@[simp] theorem enterConfiguring_cmd (m : BitVec 2) (w h : Byte) (r : Bool) (s : State) : (enterConfiguring m w h r s).cmd = s.cmd := rfl
@[simp] theorem enterConfiguring_history (m : BitVec 2) (w h : Byte) (r : Bool) (s : State) : (enterConfiguring m w h r s).history = s.history := rfl
@[simp] theorem enterConfiguring_responses (m : BitVec 2) (w h : Byte) (r : Bool) (s : State) : (enterConfiguring m w h r s).responses = s.responses := rfl
@[simp] theorem enterConfiguring_devBytes (m : BitVec 2) (w h : Byte) (r : Bool) (s : State) : (enterConfiguring m w h r s).devBytes = s.devBytes := rfl
@[simp] theorem enterConfiguring_devReadies (m : BitVec 2) (w h : Byte) (r : Bool) (s : State) : (enterConfiguring m w h r s).devReadies = s.devReadies := rfl
@[simp] theorem enterConfiguring_draws (m : BitVec 2) (w h : Byte) (r : Bool) (s : State) : (enterConfiguring m w h r s).draws = s.draws := rfl
@[simp] theorem enterConfiguring_agenda (m : BitVec 2) (w h : Byte) (r : Bool) (s : State) : (enterConfiguring m w h r s).agenda = s.agenda := rfl

/-! ### commitConfiguration -/

@[simp] theorem commitConfiguration_st (s : State) : (commitConfiguration s).st = s.st := rfl
@[simp] theorem commitConfiguration_armed (s : State) : (commitConfiguration s).armed = true := rfl
@[simp] theorem commitConfiguration_ctx (s : State) : (commitConfiguration s).ctx = s.ctx := rfl
@[simp] theorem commitConfiguration_csReq (s : State) : (commitConfiguration s).csReq = s.csReq := rfl
@[simp] theorem commitConfiguration_cfgValid (s : State) : (commitConfiguration s).cfgValid = true := rfl
@[simp] theorem commitConfiguration_cfgMode (s : State) : (commitConfiguration s).cfgMode = s.wMode := rfl
@[simp] theorem commitConfiguration_cfgWires (s : State) : (commitConfiguration s).cfgWires = s.wWires := rfl
@[simp] theorem commitConfiguration_cfgHz (s : State) : (commitConfiguration s).cfgHz = s.wHz := rfl
@[simp] theorem commitConfiguration_wMode (s : State) : (commitConfiguration s).wMode = s.wMode := rfl
@[simp] theorem commitConfiguration_wWires (s : State) : (commitConfiguration s).wWires = s.wWires := rfl
@[simp] theorem commitConfiguration_wHz (s : State) : (commitConfiguration s).wHz = s.wHz := rfl
@[simp] theorem commitConfiguration_cfgbyte (s : State) : (commitConfiguration s).cfgbyte = s.cfgbyte := rfl
@[simp] theorem commitConfiguration_rb (s : State) : (commitConfiguration s).rb = s.rb := rfl
@[simp] theorem commitConfiguration_stale (s : State) : (commitConfiguration s).stale = s.stale := rfl
@[simp] theorem commitConfiguration_raw (s : State) : (commitConfiguration s).raw = s.raw := rfl
@[simp] theorem commitConfiguration_fsb (s : State) : (commitConfiguration s).fsb = s.fsb := rfl
@[simp] theorem commitConfiguration_pend (s : State) : (commitConfiguration s).pend = s.pend := rfl
@[simp] theorem commitConfiguration_rspValid (s : State) : (commitConfiguration s).rspValid = s.rspValid := rfl
@[simp] theorem commitConfiguration_rspStatus (s : State) : (commitConfiguration s).rspStatus = s.rspStatus := rfl
@[simp] theorem commitConfiguration_resultValid (s : State) : (commitConfiguration s).resultValid = s.resultValid := rfl
@[simp] theorem commitConfiguration_tempC (s : State) : (commitConfiguration s).tempC = s.tempC := rfl
@[simp] theorem commitConfiguration_tempK (s : State) : (commitConfiguration s).tempK = s.tempK := rfl
@[simp] theorem commitConfiguration_tempF (s : State) : (commitConfiguration s).tempF = s.tempF := rfl
@[simp] theorem commitConfiguration_cmdValid (s : State) : (commitConfiguration s).cmdValid = s.cmdValid := rfl
@[simp] theorem commitConfiguration_cmdWord (s : State) : (commitConfiguration s).cmdWord = s.cmdWord := rfl
@[simp] theorem commitConfiguration_cmd (s : State) : (commitConfiguration s).cmd = s.cmd := rfl
@[simp] theorem commitConfiguration_history (s : State) : (commitConfiguration s).history = s.history := rfl
@[simp] theorem commitConfiguration_responses (s : State) : (commitConfiguration s).responses = s.responses := rfl
@[simp] theorem commitConfiguration_devBytes (s : State) : (commitConfiguration s).devBytes = s.devBytes := rfl
@[simp] theorem commitConfiguration_devReadies (s : State) : (commitConfiguration s).devReadies = s.devReadies := rfl
@[simp] theorem commitConfiguration_draws (s : State) : (commitConfiguration s).draws = s.draws := rfl
@[simp] theorem commitConfiguration_agenda (s : State) : (commitConfiguration s).agenda = s.agenda := rfl

/-! ### writeReading -/

@[simp] theorem writeReading_st (r : Reading) (s : State) : (writeReading r s).st = s.st := rfl
@[simp] theorem writeReading_armed (r : Reading) (s : State) : (writeReading r s).armed = s.armed := rfl
@[simp] theorem writeReading_ctx (r : Reading) (s : State) : (writeReading r s).ctx = s.ctx := rfl
@[simp] theorem writeReading_csReq (r : Reading) (s : State) : (writeReading r s).csReq = s.csReq := rfl
@[simp] theorem writeReading_cfgValid (r : Reading) (s : State) : (writeReading r s).cfgValid = s.cfgValid := rfl
@[simp] theorem writeReading_cfgMode (r : Reading) (s : State) : (writeReading r s).cfgMode = s.cfgMode := rfl
@[simp] theorem writeReading_cfgWires (r : Reading) (s : State) : (writeReading r s).cfgWires = s.cfgWires := rfl
@[simp] theorem writeReading_cfgHz (r : Reading) (s : State) : (writeReading r s).cfgHz = s.cfgHz := rfl
@[simp] theorem writeReading_wMode (r : Reading) (s : State) : (writeReading r s).wMode = s.wMode := rfl
@[simp] theorem writeReading_wWires (r : Reading) (s : State) : (writeReading r s).wWires = s.wWires := rfl
@[simp] theorem writeReading_wHz (r : Reading) (s : State) : (writeReading r s).wHz = s.wHz := rfl
@[simp] theorem writeReading_cfgbyte (r : Reading) (s : State) : (writeReading r s).cfgbyte = s.cfgbyte := rfl
@[simp] theorem writeReading_rb (r : Reading) (s : State) : (writeReading r s).rb = s.rb := rfl
@[simp] theorem writeReading_stale (r : Reading) (s : State) : (writeReading r s).stale = s.stale := rfl
@[simp] theorem writeReading_raw (r : Reading) (s : State) : (writeReading r s).raw = s.raw := rfl
@[simp] theorem writeReading_fsb (r : Reading) (s : State) : (writeReading r s).fsb = s.fsb := rfl
@[simp] theorem writeReading_pend (r : Reading) (s : State) : (writeReading r s).pend = s.pend := rfl
@[simp] theorem writeReading_rspValid (r : Reading) (s : State) : (writeReading r s).rspValid = s.rspValid := rfl
@[simp] theorem writeReading_rspStatus (r : Reading) (s : State) : (writeReading r s).rspStatus = s.rspStatus := rfl
@[simp] theorem writeReading_resultValid (r : Reading) (s : State) : (writeReading r s).resultValid = s.resultValid := rfl
@[simp] theorem writeReading_tempC (r : Reading) (s : State) : (writeReading r s).tempC = BitVec.ofInt 32 r.c := rfl
@[simp] theorem writeReading_tempK (r : Reading) (s : State) : (writeReading r s).tempK = BitVec.ofInt 32 r.k := rfl
@[simp] theorem writeReading_tempF (r : Reading) (s : State) : (writeReading r s).tempF = BitVec.ofInt 32 r.f := rfl
@[simp] theorem writeReading_cmdValid (r : Reading) (s : State) : (writeReading r s).cmdValid = s.cmdValid := rfl
@[simp] theorem writeReading_cmdWord (r : Reading) (s : State) : (writeReading r s).cmdWord = s.cmdWord := rfl
@[simp] theorem writeReading_cmd (r : Reading) (s : State) : (writeReading r s).cmd = s.cmd := rfl
@[simp] theorem writeReading_history (r : Reading) (s : State) : (writeReading r s).history = s.history := rfl
@[simp] theorem writeReading_responses (r : Reading) (s : State) : (writeReading r s).responses = s.responses := rfl
@[simp] theorem writeReading_devBytes (r : Reading) (s : State) : (writeReading r s).devBytes = s.devBytes := rfl
@[simp] theorem writeReading_devReadies (r : Reading) (s : State) : (writeReading r s).devReadies = s.devReadies := rfl
@[simp] theorem writeReading_draws (r : Reading) (s : State) : (writeReading r s).draws = s.draws := rfl
@[simp] theorem writeReading_agenda (r : Reading) (s : State) : (writeReading r s).agenda = s.agenda := rfl

/-! ### takeMove -/

@[simp] theorem takeMove_st (s : State) : (takeMove s).st = s.st := rfl
@[simp] theorem takeMove_armed (s : State) : (takeMove s).armed = s.armed := rfl
@[simp] theorem takeMove_ctx (s : State) : (takeMove s).ctx = s.ctx := rfl
@[simp] theorem takeMove_csReq (s : State) : (takeMove s).csReq = s.csReq := rfl
@[simp] theorem takeMove_cfgValid (s : State) : (takeMove s).cfgValid = s.cfgValid := rfl
@[simp] theorem takeMove_cfgMode (s : State) : (takeMove s).cfgMode = s.cfgMode := rfl
@[simp] theorem takeMove_cfgWires (s : State) : (takeMove s).cfgWires = s.cfgWires := rfl
@[simp] theorem takeMove_cfgHz (s : State) : (takeMove s).cfgHz = s.cfgHz := rfl
@[simp] theorem takeMove_wMode (s : State) : (takeMove s).wMode = s.wMode := rfl
@[simp] theorem takeMove_wWires (s : State) : (takeMove s).wWires = s.wWires := rfl
@[simp] theorem takeMove_wHz (s : State) : (takeMove s).wHz = s.wHz := rfl
@[simp] theorem takeMove_cfgbyte (s : State) : (takeMove s).cfgbyte = s.cfgbyte := rfl
@[simp] theorem takeMove_rb (s : State) : (takeMove s).rb = s.rb := rfl
@[simp] theorem takeMove_stale (s : State) : (takeMove s).stale = s.stale := rfl
@[simp] theorem takeMove_raw (s : State) : (takeMove s).raw = s.raw := rfl
@[simp] theorem takeMove_fsb (s : State) : (takeMove s).fsb = s.fsb := rfl
@[simp] theorem takeMove_pend (s : State) : (takeMove s).pend = s.pend := rfl
@[simp] theorem takeMove_rspValid (s : State) : (takeMove s).rspValid = s.rspValid := rfl
@[simp] theorem takeMove_rspStatus (s : State) : (takeMove s).rspStatus = s.rspStatus := rfl
@[simp] theorem takeMove_resultValid (s : State) : (takeMove s).resultValid = s.resultValid := rfl
@[simp] theorem takeMove_tempC (s : State) : (takeMove s).tempC = s.tempC := rfl
@[simp] theorem takeMove_tempK (s : State) : (takeMove s).tempK = s.tempK := rfl
@[simp] theorem takeMove_tempF (s : State) : (takeMove s).tempF = s.tempF := rfl
@[simp] theorem takeMove_cmdValid (s : State) : (takeMove s).cmdValid = s.cmdValid := rfl
@[simp] theorem takeMove_cmdWord (s : State) : (takeMove s).cmdWord = s.cmdWord := rfl
@[simp] theorem takeMove_cmd (s : State) : (takeMove s).cmd = s.cmd := rfl
@[simp] theorem takeMove_history (s : State) : (takeMove s).history = s.history := rfl
@[simp] theorem takeMove_responses (s : State) : (takeMove s).responses = s.responses := rfl
@[simp] theorem takeMove_devBytes (s : State) : (takeMove s).devBytes = s.devBytes := rfl
@[simp] theorem takeMove_devReadies (s : State) : (takeMove s).devReadies = s.devReadies := rfl
@[simp] theorem takeMove_draws (s : State) : (takeMove s).draws = s.draws := rfl
@[simp] theorem takeMove_agenda (s : State) : (takeMove s).agenda = s.agenda.tail := rfl

/-! ### hostPresents -/

@[simp] theorem hostPresents_st (w : Word) (s : State) : (hostPresents w s).st = s.st := rfl
@[simp] theorem hostPresents_armed (w : Word) (s : State) : (hostPresents w s).armed = s.armed := rfl
@[simp] theorem hostPresents_ctx (w : Word) (s : State) : (hostPresents w s).ctx = s.ctx := rfl
@[simp] theorem hostPresents_csReq (w : Word) (s : State) : (hostPresents w s).csReq = s.csReq := rfl
@[simp] theorem hostPresents_cfgValid (w : Word) (s : State) : (hostPresents w s).cfgValid = s.cfgValid := rfl
@[simp] theorem hostPresents_cfgMode (w : Word) (s : State) : (hostPresents w s).cfgMode = s.cfgMode := rfl
@[simp] theorem hostPresents_cfgWires (w : Word) (s : State) : (hostPresents w s).cfgWires = s.cfgWires := rfl
@[simp] theorem hostPresents_cfgHz (w : Word) (s : State) : (hostPresents w s).cfgHz = s.cfgHz := rfl
@[simp] theorem hostPresents_wMode (w : Word) (s : State) : (hostPresents w s).wMode = s.wMode := rfl
@[simp] theorem hostPresents_wWires (w : Word) (s : State) : (hostPresents w s).wWires = s.wWires := rfl
@[simp] theorem hostPresents_wHz (w : Word) (s : State) : (hostPresents w s).wHz = s.wHz := rfl
@[simp] theorem hostPresents_cfgbyte (w : Word) (s : State) : (hostPresents w s).cfgbyte = s.cfgbyte := rfl
@[simp] theorem hostPresents_rb (w : Word) (s : State) : (hostPresents w s).rb = s.rb := rfl
@[simp] theorem hostPresents_stale (w : Word) (s : State) : (hostPresents w s).stale = s.stale := rfl
@[simp] theorem hostPresents_raw (w : Word) (s : State) : (hostPresents w s).raw = s.raw := rfl
@[simp] theorem hostPresents_fsb (w : Word) (s : State) : (hostPresents w s).fsb = s.fsb := rfl
@[simp] theorem hostPresents_pend (w : Word) (s : State) : (hostPresents w s).pend = s.pend := rfl
@[simp] theorem hostPresents_rspValid (w : Word) (s : State) : (hostPresents w s).rspValid = s.rspValid := rfl
@[simp] theorem hostPresents_rspStatus (w : Word) (s : State) : (hostPresents w s).rspStatus = s.rspStatus := rfl
@[simp] theorem hostPresents_resultValid (w : Word) (s : State) : (hostPresents w s).resultValid = s.resultValid := rfl
@[simp] theorem hostPresents_tempC (w : Word) (s : State) : (hostPresents w s).tempC = s.tempC := rfl
@[simp] theorem hostPresents_tempK (w : Word) (s : State) : (hostPresents w s).tempK = s.tempK := rfl
@[simp] theorem hostPresents_tempF (w : Word) (s : State) : (hostPresents w s).tempF = s.tempF := rfl
@[simp] theorem hostPresents_cmdValid (w : Word) (s : State) : (hostPresents w s).cmdValid = true := rfl
@[simp] theorem hostPresents_cmdWord (w : Word) (s : State) : (hostPresents w s).cmdWord = w := rfl
@[simp] theorem hostPresents_cmd (w : Word) (s : State) : (hostPresents w s).cmd = s.cmd := rfl
@[simp] theorem hostPresents_history (w : Word) (s : State) : (hostPresents w s).history = s.history := rfl
@[simp] theorem hostPresents_responses (w : Word) (s : State) : (hostPresents w s).responses = s.responses := rfl
@[simp] theorem hostPresents_devBytes (w : Word) (s : State) : (hostPresents w s).devBytes = s.devBytes := rfl
@[simp] theorem hostPresents_devReadies (w : Word) (s : State) : (hostPresents w s).devReadies = s.devReadies := rfl
@[simp] theorem hostPresents_draws (w : Word) (s : State) : (hostPresents w s).draws = s.draws := rfl
@[simp] theorem hostPresents_agenda (w : Word) (s : State) : (hostPresents w s).agenda = s.agenda := rfl

/-! ### devChoosesBytes -/

@[simp] theorem devChoosesBytes_st (bs : List Byte) (s : State) : (devChoosesBytes bs s).st = s.st := rfl
@[simp] theorem devChoosesBytes_armed (bs : List Byte) (s : State) : (devChoosesBytes bs s).armed = s.armed := rfl
@[simp] theorem devChoosesBytes_ctx (bs : List Byte) (s : State) : (devChoosesBytes bs s).ctx = s.ctx := rfl
@[simp] theorem devChoosesBytes_csReq (bs : List Byte) (s : State) : (devChoosesBytes bs s).csReq = s.csReq := rfl
@[simp] theorem devChoosesBytes_cfgValid (bs : List Byte) (s : State) : (devChoosesBytes bs s).cfgValid = s.cfgValid := rfl
@[simp] theorem devChoosesBytes_cfgMode (bs : List Byte) (s : State) : (devChoosesBytes bs s).cfgMode = s.cfgMode := rfl
@[simp] theorem devChoosesBytes_cfgWires (bs : List Byte) (s : State) : (devChoosesBytes bs s).cfgWires = s.cfgWires := rfl
@[simp] theorem devChoosesBytes_cfgHz (bs : List Byte) (s : State) : (devChoosesBytes bs s).cfgHz = s.cfgHz := rfl
@[simp] theorem devChoosesBytes_wMode (bs : List Byte) (s : State) : (devChoosesBytes bs s).wMode = s.wMode := rfl
@[simp] theorem devChoosesBytes_wWires (bs : List Byte) (s : State) : (devChoosesBytes bs s).wWires = s.wWires := rfl
@[simp] theorem devChoosesBytes_wHz (bs : List Byte) (s : State) : (devChoosesBytes bs s).wHz = s.wHz := rfl
@[simp] theorem devChoosesBytes_cfgbyte (bs : List Byte) (s : State) : (devChoosesBytes bs s).cfgbyte = s.cfgbyte := rfl
@[simp] theorem devChoosesBytes_rb (bs : List Byte) (s : State) : (devChoosesBytes bs s).rb = s.rb := rfl
@[simp] theorem devChoosesBytes_stale (bs : List Byte) (s : State) : (devChoosesBytes bs s).stale = s.stale := rfl
@[simp] theorem devChoosesBytes_raw (bs : List Byte) (s : State) : (devChoosesBytes bs s).raw = s.raw := rfl
@[simp] theorem devChoosesBytes_fsb (bs : List Byte) (s : State) : (devChoosesBytes bs s).fsb = s.fsb := rfl
@[simp] theorem devChoosesBytes_pend (bs : List Byte) (s : State) : (devChoosesBytes bs s).pend = s.pend := rfl
@[simp] theorem devChoosesBytes_rspValid (bs : List Byte) (s : State) : (devChoosesBytes bs s).rspValid = s.rspValid := rfl
@[simp] theorem devChoosesBytes_rspStatus (bs : List Byte) (s : State) : (devChoosesBytes bs s).rspStatus = s.rspStatus := rfl
@[simp] theorem devChoosesBytes_resultValid (bs : List Byte) (s : State) : (devChoosesBytes bs s).resultValid = s.resultValid := rfl
@[simp] theorem devChoosesBytes_tempC (bs : List Byte) (s : State) : (devChoosesBytes bs s).tempC = s.tempC := rfl
@[simp] theorem devChoosesBytes_tempK (bs : List Byte) (s : State) : (devChoosesBytes bs s).tempK = s.tempK := rfl
@[simp] theorem devChoosesBytes_tempF (bs : List Byte) (s : State) : (devChoosesBytes bs s).tempF = s.tempF := rfl
@[simp] theorem devChoosesBytes_cmdValid (bs : List Byte) (s : State) : (devChoosesBytes bs s).cmdValid = s.cmdValid := rfl
@[simp] theorem devChoosesBytes_cmdWord (bs : List Byte) (s : State) : (devChoosesBytes bs s).cmdWord = s.cmdWord := rfl
@[simp] theorem devChoosesBytes_cmd (bs : List Byte) (s : State) : (devChoosesBytes bs s).cmd = s.cmd := rfl
@[simp] theorem devChoosesBytes_history (bs : List Byte) (s : State) : (devChoosesBytes bs s).history = s.history := rfl
@[simp] theorem devChoosesBytes_responses (bs : List Byte) (s : State) : (devChoosesBytes bs s).responses = s.responses := rfl
@[simp] theorem devChoosesBytes_devBytes (bs : List Byte) (s : State) : (devChoosesBytes bs s).devBytes = s.devBytes ++ bs := rfl
@[simp] theorem devChoosesBytes_devReadies (bs : List Byte) (s : State) : (devChoosesBytes bs s).devReadies = s.devReadies := rfl
@[simp] theorem devChoosesBytes_draws (bs : List Byte) (s : State) : (devChoosesBytes bs s).draws = s.draws := rfl
@[simp] theorem devChoosesBytes_agenda (bs : List Byte) (s : State) : (devChoosesBytes bs s).agenda = s.agenda := rfl

/-! ### devChoosesReady -/

@[simp] theorem devChoosesReady_st (b : Bool) (s : State) : (devChoosesReady b s).st = s.st := rfl
@[simp] theorem devChoosesReady_armed (b : Bool) (s : State) : (devChoosesReady b s).armed = s.armed := rfl
@[simp] theorem devChoosesReady_ctx (b : Bool) (s : State) : (devChoosesReady b s).ctx = s.ctx := rfl
@[simp] theorem devChoosesReady_csReq (b : Bool) (s : State) : (devChoosesReady b s).csReq = s.csReq := rfl
@[simp] theorem devChoosesReady_cfgValid (b : Bool) (s : State) : (devChoosesReady b s).cfgValid = s.cfgValid := rfl
@[simp] theorem devChoosesReady_cfgMode (b : Bool) (s : State) : (devChoosesReady b s).cfgMode = s.cfgMode := rfl
@[simp] theorem devChoosesReady_cfgWires (b : Bool) (s : State) : (devChoosesReady b s).cfgWires = s.cfgWires := rfl
@[simp] theorem devChoosesReady_cfgHz (b : Bool) (s : State) : (devChoosesReady b s).cfgHz = s.cfgHz := rfl
@[simp] theorem devChoosesReady_wMode (b : Bool) (s : State) : (devChoosesReady b s).wMode = s.wMode := rfl
@[simp] theorem devChoosesReady_wWires (b : Bool) (s : State) : (devChoosesReady b s).wWires = s.wWires := rfl
@[simp] theorem devChoosesReady_wHz (b : Bool) (s : State) : (devChoosesReady b s).wHz = s.wHz := rfl
@[simp] theorem devChoosesReady_cfgbyte (b : Bool) (s : State) : (devChoosesReady b s).cfgbyte = s.cfgbyte := rfl
@[simp] theorem devChoosesReady_rb (b : Bool) (s : State) : (devChoosesReady b s).rb = s.rb := rfl
@[simp] theorem devChoosesReady_stale (b : Bool) (s : State) : (devChoosesReady b s).stale = s.stale := rfl
@[simp] theorem devChoosesReady_raw (b : Bool) (s : State) : (devChoosesReady b s).raw = s.raw := rfl
@[simp] theorem devChoosesReady_fsb (b : Bool) (s : State) : (devChoosesReady b s).fsb = s.fsb := rfl
@[simp] theorem devChoosesReady_pend (b : Bool) (s : State) : (devChoosesReady b s).pend = s.pend := rfl
@[simp] theorem devChoosesReady_rspValid (b : Bool) (s : State) : (devChoosesReady b s).rspValid = s.rspValid := rfl
@[simp] theorem devChoosesReady_rspStatus (b : Bool) (s : State) : (devChoosesReady b s).rspStatus = s.rspStatus := rfl
@[simp] theorem devChoosesReady_resultValid (b : Bool) (s : State) : (devChoosesReady b s).resultValid = s.resultValid := rfl
@[simp] theorem devChoosesReady_tempC (b : Bool) (s : State) : (devChoosesReady b s).tempC = s.tempC := rfl
@[simp] theorem devChoosesReady_tempK (b : Bool) (s : State) : (devChoosesReady b s).tempK = s.tempK := rfl
@[simp] theorem devChoosesReady_tempF (b : Bool) (s : State) : (devChoosesReady b s).tempF = s.tempF := rfl
@[simp] theorem devChoosesReady_cmdValid (b : Bool) (s : State) : (devChoosesReady b s).cmdValid = s.cmdValid := rfl
@[simp] theorem devChoosesReady_cmdWord (b : Bool) (s : State) : (devChoosesReady b s).cmdWord = s.cmdWord := rfl
@[simp] theorem devChoosesReady_cmd (b : Bool) (s : State) : (devChoosesReady b s).cmd = s.cmd := rfl
@[simp] theorem devChoosesReady_history (b : Bool) (s : State) : (devChoosesReady b s).history = s.history := rfl
@[simp] theorem devChoosesReady_responses (b : Bool) (s : State) : (devChoosesReady b s).responses = s.responses := rfl
@[simp] theorem devChoosesReady_devBytes (b : Bool) (s : State) : (devChoosesReady b s).devBytes = s.devBytes := rfl
@[simp] theorem devChoosesReady_devReadies (b : Bool) (s : State) : (devChoosesReady b s).devReadies = s.devReadies ++ [b] := rfl
@[simp] theorem devChoosesReady_draws (b : Bool) (s : State) : (devChoosesReady b s).draws = s.draws := rfl
@[simp] theorem devChoosesReady_agenda (b : Bool) (s : State) : (devChoosesReady b s).agenda = s.agenda := rfl

/-! ### applyReset -/

@[simp] theorem applyReset_st (s : State) : (applyReset s).st = State.reset.st := rfl
@[simp] theorem applyReset_armed (s : State) : (applyReset s).armed = State.reset.armed := rfl
@[simp] theorem applyReset_ctx (s : State) : (applyReset s).ctx = State.reset.ctx := rfl
@[simp] theorem applyReset_csReq (s : State) : (applyReset s).csReq = State.reset.csReq := rfl
@[simp] theorem applyReset_cfgValid (s : State) : (applyReset s).cfgValid = State.reset.cfgValid := rfl
@[simp] theorem applyReset_cfgMode (s : State) : (applyReset s).cfgMode = State.reset.cfgMode := rfl
@[simp] theorem applyReset_cfgWires (s : State) : (applyReset s).cfgWires = State.reset.cfgWires := rfl
@[simp] theorem applyReset_cfgHz (s : State) : (applyReset s).cfgHz = State.reset.cfgHz := rfl
@[simp] theorem applyReset_wMode (s : State) : (applyReset s).wMode = State.reset.wMode := rfl
@[simp] theorem applyReset_wWires (s : State) : (applyReset s).wWires = State.reset.wWires := rfl
@[simp] theorem applyReset_wHz (s : State) : (applyReset s).wHz = State.reset.wHz := rfl
@[simp] theorem applyReset_cfgbyte (s : State) : (applyReset s).cfgbyte = State.reset.cfgbyte := rfl
@[simp] theorem applyReset_rb (s : State) : (applyReset s).rb = State.reset.rb := rfl
@[simp] theorem applyReset_stale (s : State) : (applyReset s).stale = State.reset.stale := rfl
@[simp] theorem applyReset_raw (s : State) : (applyReset s).raw = State.reset.raw := rfl
@[simp] theorem applyReset_fsb (s : State) : (applyReset s).fsb = State.reset.fsb := rfl
@[simp] theorem applyReset_pend (s : State) : (applyReset s).pend = State.reset.pend := rfl
@[simp] theorem applyReset_rspValid (s : State) : (applyReset s).rspValid = State.reset.rspValid := rfl
@[simp] theorem applyReset_rspStatus (s : State) : (applyReset s).rspStatus = State.reset.rspStatus := rfl
@[simp] theorem applyReset_resultValid (s : State) : (applyReset s).resultValid = State.reset.resultValid := rfl
@[simp] theorem applyReset_tempC (s : State) : (applyReset s).tempC = State.reset.tempC := rfl
@[simp] theorem applyReset_tempK (s : State) : (applyReset s).tempK = State.reset.tempK := rfl
@[simp] theorem applyReset_tempF (s : State) : (applyReset s).tempF = State.reset.tempF := rfl
@[simp] theorem applyReset_cmdValid (s : State) : (applyReset s).cmdValid = s.cmdValid := rfl
@[simp] theorem applyReset_cmdWord (s : State) : (applyReset s).cmdWord = s.cmdWord := rfl
@[simp] theorem applyReset_cmd (s : State) : (applyReset s).cmd = none := rfl
@[simp] theorem applyReset_history (s : State) : (applyReset s).history = s.history := rfl
@[simp] theorem applyReset_responses (s : State) : (applyReset s).responses = s.responses := rfl
@[simp] theorem applyReset_devBytes (s : State) : (applyReset s).devBytes = s.devBytes := rfl
@[simp] theorem applyReset_devReadies (s : State) : (applyReset s).devReadies = s.devReadies := rfl
@[simp] theorem applyReset_draws (s : State) : (applyReset s).draws = s.draws := rfl
@[simp] theorem applyReset_agenda (s : State) : (applyReset s).agenda = s.agenda := rfl

end Sys2Proof.Machine
end

