-- ==== Sys2Proof/Laws/Ops.lean ====
section
/-! SUPPORT. One lemma for each shared operation: what it can answer, or what its codes mean. -/

namespace Sys2Proof.Machine

/-! ### Codes -/

@[simp] theorem MicroState.ofCode_code (m : MicroState) : MicroState.ofCode m.code = some m := by
  cases m <;> rfl

theorem MicroState.code_of_ofCode {c : BitVec 5} {m : MicroState} (h : MicroState.ofCode c = some m) :
    c = m.code := by
  revert c m
  decide

theorem MicroState.ofCode_eq_none_iff (c : BitVec 5) : MicroState.ofCode c = none ↔ 14 ≤ c.toNat := by
  revert c
  decide

@[simp] theorem Status.ofCode_code (x : Status) : Status.ofCode x.code = some x := by
  cases x <;> rfl

theorem Status.code_of_ofCode {c : BitVec 4} {x : Status} (h : Status.ofCode c = some x) : c = x.code := by
  revert c x
  decide

theorem Status.ofCode_eq_none_iff (c : BitVec 4) : Status.ofCode c = none ↔ 11 ≤ c.toNat := by
  revert c
  decide

theorem Status.code_injective {x y : Status} (h : x.code = y.code) : x = y := by
  have := congrArg Status.ofCode h
  simpa using this

/-- The micro-state of a state depends on `st` alone. -/
theorem State.micro_congr {s t : State} (h : s.st = t.st) : s.micro = t.micro := by
  simp only [State.micro, h]

@[simp] theorem State.micro_goto (s : State) (m : MicroState) : (s.goto m).micro = some m :=
  MicroState.ofCode_code m

@[simp] theorem complete_micro (c : BitVec 4) (r : Bool) (s : State) :
    (complete c r s).micro = some .idle := rfl

@[simp] theorem enterConfiguring_micro (m : BitVec 2) (w h : Byte) (r : Bool) (s : State) :
    (enterConfiguring m w h r s).micro = some .cP1CsEnter := rfl

@[simp] theorem respondConfiguring_eq (x : Status) (s : State) :
    respondConfiguring x s = (complete (if s.ctx then s.pend else x.code) false s).clearCtx := rfl

theorem State.cmdReady_iff (s : State) : s.cmdReady = true ↔ s.micro = some .idle := by
  constructor
  · intro h
    have : s.st = MicroState.code .idle := by simpa [State.cmdReady] using h
    simp [State.micro, this]
  · intro h
    simpa [State.cmdReady] using MicroState.code_of_ofCode h

/-! ### Boundary events as one record each -/

@[simp] theorem memWrite_eq (a v : Byte) (s : State) : memWrite a v s = s.record (.busWr a v) := rfl

@[simp] theorem memRead1_eq (a : Byte) (s : State) :
    memRead1 a s = s.popByte.record (.busRd a 1 [s.devByte]) := rfl

@[simp] theorem memRead2_eq (a : Byte) (s : State) :
    memRead2 a s = s.popByte.popByte.record (.busRd a 2 [s.devByte, s.popByte.devByte]) := rfl

@[simp] theorem readyQuery_eq (s : State) : readyQuery s = s.popReady.record (.rdy s.devReady) := rfl

@[simp] theorem delay_eq (ms : Nat) (s : State) : delay ms s = s.record (.dly ms) := rfl

@[simp] theorem respondRead_eq (x : Status) (s : State) :
    respondRead x s = complete x.code x.hasResult s := rfl

/-! ### Draws -/

/-- The answers of the device depend on its choices and the draw counter alone. -/
theorem State.devByte_congr {s t : State} (hb : s.devBytes = t.devBytes) (hd : s.draws = t.draws) :
    s.devByte = t.devByte := by
  simp only [State.devByte, hb, hd]

theorem State.devReady_congr {s t : State} (hb : s.devReadies = t.devReadies) (hd : s.draws = t.draws) :
    s.devReady = t.devReady := by
  simp only [State.devReady, hb, hd]

@[simp] theorem State.record_devByte (s : State) (e : Event) : (s.record e).devByte = s.devByte := rfl
@[simp] theorem State.goto_devByte (s : State) (m : MicroState) : (s.goto m).devByte = s.devByte := rfl
@[simp] theorem State.setCfgbyte_devByte (s : State) (b : Byte) : (s.setCfgbyte b).devByte = s.devByte := rfl
@[simp] theorem State.setRb_devByte (s : State) (b : Byte) : (s.setRb b).devByte = s.devByte := rfl
@[simp] theorem csEnter_devByte (s : State) : (csEnter s).devByte = s.devByte := rfl
@[simp] theorem csLeave_devByte (s : State) : (csLeave s).devByte = s.devByte := rfl
@[simp] theorem clearResponse_devByte (s : State) : (clearResponse s).devByte = s.devByte := rfl
@[simp] theorem takeCommand_devByte (s : State) : (takeCommand s).devByte = s.devByte := rfl
@[simp] theorem clearResponse_devReady (s : State) : (clearResponse s).devReady = s.devReady := rfl
@[simp] theorem takeCommand_devReady (s : State) : (takeCommand s).devReady = s.devReady := rfl
@[simp] theorem takeMove_devByte (s : State) : (takeMove s).devByte = s.devByte := rfl
@[simp] theorem takeMove_devReady (s : State) : (takeMove s).devReady = s.devReady := rfl
@[simp] theorem takeMove_popByte_devByte (s : State) : (takeMove s).popByte.devByte = s.popByte.devByte := rfl
@[simp] theorem takeMove_micro (s : State) : (takeMove s).micro = s.micro := rfl
@[simp] theorem takeMove_cmdReady (s : State) : (takeMove s).cmdReady = s.cmdReady := rfl
@[simp] theorem enterConfiguring_devByte (m : BitVec 2) (w h : Byte) (r : Bool) (s : State) :
    (enterConfiguring m w h r s).devByte = s.devByte := rfl

/-! ### Completion and the fault path -/

/-- What `respondConfiguring` reports: its own status outside a retry, `pend` in one (R83). -/
theorem respondConfiguring_status (x : Status) (s : State) :
    (respondConfiguring x s).rspStatus = if s.ctx then s.pend else x.code := rfl

/-- The two ways the fault path goes on (R89). -/
theorem takeFault_cases (fs : Byte) (s : State) :
    (s.cfgValid = true ∧ takeFault fs s =
        enterConfiguring s.cfgMode s.cfgWires s.cfgHz true (s.saveFault fs)) ∨
    (s.cfgValid = false ∧ takeFault fs s =
        respondRead (classify fs) (s.saveFault fs)) := by
  cases h : s.cfgValid with
  | true => exact .inl ⟨rfl, by simp [takeFault, h]⟩
  | false => exact .inr ⟨rfl, by simp [takeFault, h]⟩

theorem classify_isDeviceFault (fs : Byte) : (classify fs).isDeviceFault = true := by
  unfold classify
  split
  · rfl
  · split <;> rfl

/-! ### START's operands -/

theorem inputError_eq_none_iff (mode wires hz : Nat) :
    inputError mode wires hz = none ↔
      (mode = 0 ∨ mode = 1) ∧ (wires = 2 ∨ wires = 3 ∨ wires = 4) ∧ (hz = 50 ∨ hz = 60) := by
  unfold inputError
  by_cases hw : WiresValid wires <;> by_cases hh : HzValid hz <;> by_cases hm : ModeValid mode <;>
    simp only [hw, hh, hm] <;> simp_all

/-! ### Conversion -/

theorem tableIndex_of_inRange {code : Code} (h1 : Config.minCode ≤ code.toNat)
    (h2 : code.toNat < Config.minCode + Config.table.len) :
    tableIndex code = some ⟨code.toNat - Config.minCode, by omega⟩ := by
  have h : (0 : Int) ≤ (code.toNat : Int) - (Config.minCode : Int) ∧
      (code.toNat : Int) - (Config.minCode : Int) < (Config.table.len : Int) := by omega
  have hn : ((code.toNat : Int) - (Config.minCode : Int)).toNat = code.toNat - Config.minCode := by omega
  simp only [tableIndex, h, and_self, dite_true, hn]

theorem tableIndex_eq_none_iff (code : Code) :
    tableIndex code = none ↔
      code.toNat < Config.minCode ∨ Config.minCode + Config.table.len ≤ code.toNat := by
  simp only [tableIndex, dite_eq_right_iff, reduceCtorEq, imp_false]
  omega

theorem convert_eq_none_iff (code : Code) : convert code = none ↔ tableIndex code = none := by
  unfold convert
  split <;> simp_all

theorem convert_of_tableIndex {code : Code} {i : Fin Config.table.len} (h : tableIndex code = some i) :
    convert code = some ⟨(Config.table.entry i).toInt, kelvinOf (Config.table.entry i).toInt,
      fahrenheitOf (Config.table.entry i).toInt⟩ := by
  simp [convert, h]

/-- R100 over any distance. -/
theorem table_monotone {i j : Nat} (hij : i ≤ j) (hj : j < Config.table.len) :
    (Config.table.entry ⟨i, by omega⟩).toInt ≤ (Config.table.entry ⟨j, hj⟩).toInt := by
  induction j, hij using Nat.le_induction with
  | base => exact le_refl _
  | succ k hk ih => exact le_trans (ih (by omega)) (Config.table.entry_mono k hj)

end Sys2Proof.Machine
end

