-- ==== Sys2Proof/Laws/PerInstr.lean ====
section
/-! SUPPORT. Statements made for each constructor of `Instr`. -/

namespace Sys2Proof.Laws

/-- The mask of a constructor's row in spec/opcode_table.json. -/
def tableMask : Instr → Word
  | .start _ _ _ => 0xFF0000F3#32
  | .read => 0xFFFFFFFF#32

/-- The match of a constructor's row in spec/opcode_table.json. -/
def tableMatch : Instr → Word
  | .start _ _ _ => 0x00000001#32
  | .read => 0x00000002#32

namespace TableRow

/-- The encoding of a well-formed command has the fixed bits of its row of the opcode table. -/
def Statement (i : Instr) : Prop := i.WellFormed → encode i &&& tableMask i = tableMatch i

set_option maxRecDepth 4000 in
theorem start (mode wires hz : Nat) : Statement (.start mode wires hz) := by
  rintro ⟨hm, hw, hh⟩
  have key : ∀ m : Fin 4, BitVec.ofNat 32 m.val <<< 2 &&& 0xFF0000F3#32 = 0 := by decide
  have key8 : ∀ w : Fin 256, BitVec.ofNat 32 w.val <<< 8 &&& 0xFF0000F3#32 = 0 := by decide
  have key16 : ∀ h : Fin 256, BitVec.ofNat 32 h.val <<< 16 &&& 0xFF0000F3#32 = 0 := by decide
  have h1 := key ⟨mode, by omega⟩
  have h2 := key8 ⟨wires, by omega⟩
  have h3 := key16 ⟨hz, by omega⟩
  dsimp only at h1 h2 h3
  simp only [encode, tableMask, tableMatch, BitVec.and_or_distrib_right, h1, h2, h3]
  decide

theorem read : Statement .read := fun _ => by decide

end TableRow

end Sys2Proof.Laws
end

