-- ==== Sys2Proof/Laws/Step.lean ====
section
/-! SUPPORT. What one step can do, said once. -/

namespace Sys2Proof.Machine

/-- An empty agenda leaves nothing to take. -/
theorem takeMove_of_nil {s : State} (h : s.agenda = []) : takeMove s = s := by
  cases s
  simp_all [takeMove]

theorem nextMove_of_nil {s : State} (h : s.agenda = []) : nextMove s = .seq := by
  simp [nextMove, h]

/-- The next move depends on the agenda alone. -/
theorem nextMove_congr {s t : State} (h : t.agenda = s.agenda) : nextMove t = nextMove s := by
  simp only [nextMove, h]

/-- When the sequencer moves next, a step is its own, whatever moves stand behind it. -/
theorem step_of_own_move {s : State} (h : nextMove s = .seq) : step s = seqStep (takeMove s) := by
  simp only [step, h, act]

/-- With an empty agenda a step is the sequencer's own. -/
theorem step_of_agenda_nil {s : State} (h : s.agenda = []) : step s = seqStep s := by
  rw [step_of_own_move (nextMove_of_nil h), takeMove_of_nil h]

/-- In a legal state the sequencer's step is that of its micro-state. -/
theorem seqStep_of_micro {s : State} {m : MicroState} (hx : Status.ofCode s.rspStatus ≠ none)
    (hm : s.micro = some m) (hi : m ≠ .idle) : seqStep s = .next (microStep m s) := by
  obtain ⟨x, hx⟩ := Option.ne_none_iff_exists'.mp hx
  unfold seqStep
  rw [hx, hm]
  cases m <;> first | rfl | exact absurd rfl hi

theorem seqStep_of_idle {s : State} (hx : Status.ofCode s.rspStatus ≠ none)
    (hm : s.micro = some .idle) : seqStep s = idleStep s := by
  obtain ⟨x, hx⟩ := Option.ne_none_iff_exists'.mp hx
  simp [seqStep, hx, hm]

/-- Everything the sequencer's step can answer with a next state: a micro-state's step, the acceptance of a
command, or nothing in `IDLE`. -/
theorem seqStep_next_cases {s t : State} (h : seqStep s = .next t) :
    Status.ofCode s.rspStatus ≠ none ∧
    ((∃ m, s.micro = some m ∧ m ≠ .idle ∧ t = microStep m s) ∨
     (s.micro = some .idle ∧ s.cmdValid = true ∧
        ∃ i, decode s.cmdWord = .command i ∧ exec i (takeCommand s) = .next t) ∨
     (s.micro = some .idle ∧ s.cmdValid = false ∧ t = s)) := by
  cases hx : Status.ofCode s.rspStatus with
  | none => simp [seqStep, hx] at h
  | some x =>
    refine ⟨by simp, ?_⟩
    have hx' : Status.ofCode s.rspStatus ≠ none := by simp [hx]
    cases hm : s.micro with
    | none => simp [seqStep, hx, hm] at h
    | some m =>
      by_cases hi : m = .idle
      · subst hi
        rw [seqStep_of_idle hx' hm] at h
        cases hv : s.cmdValid with
        | true =>
          cases hd : decode s.cmdWord with
          | command i => exact .inr (.inl ⟨rfl, rfl, i, rfl, by simpa [idleStep, hv, hd] using h⟩)
          | reserved why => simp [idleStep, hv, hd] at h
        | false =>
          simp only [idleStep, hv, Bool.false_eq_true, if_false, Host.Outcome.next.injEq] at h
          exact .inr (.inr ⟨rfl, rfl, h.symm⟩)
      · rw [seqStep_of_micro hx' hm hi] at h
        cases h
        exact .inl ⟨m, rfl, hi, rfl⟩

/-- Everything a step can answer with a next state: the sequencer's step, or another agent's move. -/
theorem step_next_cases {s t : State} (h : step s = .next t) :
    (nextMove s = .seq ∧ seqStep (takeMove s) = .next t) ∨
    (∃ w, nextMove s = .hostPresent w ∧ t = hostPresents w (takeMove s)) ∨
    (∃ bs, nextMove s = .devBytes bs ∧ t = devChoosesBytes bs (takeMove s)) ∨
    (∃ b, nextMove s = .devReady b ∧ t = devChoosesReady b (takeMove s)) ∨
    (nextMove s = .platWait ∧ t = takeMove s) ∨
    (∃ bs n, nextMove s = .otherBus bs n ∧ s.csReq = false ∧ t = takeMove s) ∨
    (nextMove s = .reset ∧ t = applyReset (takeMove s)) := by
  unfold step at h
  cases hm : nextMove s with
  | seq => simpa [hm, act] using h
  | hostPresent w =>
    simp only [hm, act, Host.Outcome.next.injEq] at h
    exact .inr (.inl ⟨w, rfl, h.symm⟩)
  | devBytes bs =>
    simp only [hm, act, Host.Outcome.next.injEq] at h
    exact .inr (.inr (.inl ⟨bs, rfl, h.symm⟩))
  | devReady b =>
    simp only [hm, act, Host.Outcome.next.injEq] at h
    exact .inr (.inr (.inr (.inl ⟨b, rfl, h.symm⟩)))
  | platWait =>
    simp only [hm, act, Host.Outcome.next.injEq] at h
    exact .inr (.inr (.inr (.inr (.inl ⟨rfl, h.symm⟩))))
  | otherBus bs n =>
    cases hc : s.csReq with
    | true => simp [hm, act, hc] at h
    | false =>
      simp only [hm, act, takeMove_csReq, hc, Bool.false_eq_true, if_false, Host.Outcome.next.injEq] at h
      exact .inr (.inr (.inr (.inr (.inr (.inl ⟨bs, n, rfl, rfl, h.symm⟩)))))
  | reset =>
    simp only [hm, act, Host.Outcome.next.injEq] at h
    exact .inr (.inr (.inr (.inr (.inr (.inr ⟨rfl, h.symm⟩)))))

/-- Everything acceptance can answer: turned away while busy, an input error, or the first micro-state of the
command (R68, R70, R72, R86). -/
theorem exec_cases (i : Instr) (s : State) :
    (s.micro ≠ some .idle ∧ exec i s = .next s) ∨
    (s.micro = some .idle ∧ ∃ mode wires hz e, i = .start mode wires hz ∧
        inputError mode wires hz = some e ∧ exec i s = .next (respondConfiguring e (clearResponse s))) ∨
    (s.micro = some .idle ∧ ∃ mode wires hz, i = .start mode wires hz ∧ inputError mode wires hz = none ∧
        exec i s = .next (enterConfiguring (BitVec.ofNat 2 mode) (BitVec.ofNat 8 wires) (BitVec.ofNat 8 hz) false
          (clearResponse s))) ∨
    (s.micro = some .idle ∧ i = .read ∧ exec i s = .next ((clearResponse s).goto .rReady)) := by
  by_cases hr : s.cmdReady = true
  · have hm := (State.cmdReady_iff s).mp hr
    cases i with
    | start mode wires hz =>
      cases he : inputError mode wires hz with
      | some e => exact .inr (.inl ⟨hm, mode, wires, hz, e, rfl, he, by simp [exec, execStart, hr, he]⟩)
      | none => exact .inr (.inr (.inl ⟨hm, mode, wires, hz, rfl, he, by simp [exec, execStart, hr, he]⟩))
    | read => exact .inr (.inr (.inr ⟨hm, rfl, by simp [exec, execRead, hr]⟩))
  · have hm : s.micro ≠ some .idle := fun h => hr ((State.cmdReady_iff s).mpr h)
    cases i with
    | start mode wires hz => exact .inl ⟨hm, by simp [exec, execStart, hr]⟩
    | read => exact .inl ⟨hm, by simp [exec, execRead, hr]⟩

/-- At a micro-state other than `IDLE` the machine's step is that micro-state's step. -/
theorem step_at {s : State} {m : MicroState} (h : Safety.At s m) (hi : m ≠ .idle) :
    step s = .next (microStep m (takeMove s)) := by
  rw [step_of_own_move h.own_move, seqStep_of_micro (s := takeMove s) h.status_legal h.micro hi]

/-- In `IDLE` the machine's step is acceptance. -/
theorem step_at_idle {s : State} (h : Safety.At s .idle) : step s = idleStep (takeMove s) := by
  rw [step_of_own_move h.own_move, seqStep_of_idle (s := takeMove s) h.status_legal h.micro]

/-- The same with no move left on the agenda. -/
theorem step_at_of_nil {s : State} {m : MicroState} (h : Safety.At s m) (hq : s.agenda = []) (hi : m ≠ .idle) :
    step s = .next (microStep m s) := by
  rw [step_at h hi, takeMove_of_nil hq]

theorem step_at_idle_of_nil {s : State} (h : Safety.At s .idle) (hq : s.agenda = []) :
    step s = idleStep s := by
  rw [step_at_idle h, takeMove_of_nil hq]

/-- What a state needs for the sequencer to stand at `m` after another state in which it stood somewhere. -/
theorem at_of_fields {s t : State} {m m' : MicroState} (h : Safety.At s m) (hm : t.micro = some m')
    (hr : t.rspStatus = s.rspStatus) (ha : t.agenda = s.agenda) : Safety.At t m' :=
  ⟨hm, hr ▸ h.status_legal, (nextMove_congr ha).trans h.own_move⟩

theorem runSteps_succ {s t : State} (k : Nat) (h : step s = .next t) :
    Safety.runSteps (k + 1) s = Safety.runSteps k t := by
  simp only [Safety.runSteps, h]

/-- An idle sequencer with nothing presented stays as it is, however many steps are made. -/
theorem runSteps_idle (k : Nat) {s : State} (h : Safety.At s .idle) (hq : s.agenda = [])
    (hv : s.cmdValid = false) : Safety.runSteps k s = .next s := by
  induction k with
  | zero => rfl
  | succ k ih =>
    have hs : step s = .next s := by
      simp only [step_at_idle_of_nil h hq, idleStep, hv, Bool.false_eq_true, if_false]
    rw [runSteps_succ k hs, ih]

end Sys2Proof.Machine
end

