-- ==== Sys2Proof/Laws/Runs.lean ====
section
/-! SUPPORT. What the stretches of a whole command (Safety.lean) do to each field. -/

namespace Sys2Proof.Safety

open Sys2Proof.Machine

/-! ### afterPhase -/

@[simp] theorem afterPhase_st (c : Byte) (s : State) : (afterPhase c s).st = s.st := rfl
@[simp] theorem afterPhase_armed (c : Byte) (s : State) : (afterPhase c s).armed = s.armed := rfl
@[simp] theorem afterPhase_ctx (c : Byte) (s : State) : (afterPhase c s).ctx = s.ctx := rfl
@[simp] theorem afterPhase_csReq (c : Byte) (s : State) : (afterPhase c s).csReq = false := rfl
@[simp] theorem afterPhase_cfgValid (c : Byte) (s : State) : (afterPhase c s).cfgValid = s.cfgValid := rfl
@[simp] theorem afterPhase_cfgMode (c : Byte) (s : State) : (afterPhase c s).cfgMode = s.cfgMode := rfl
@[simp] theorem afterPhase_cfgWires (c : Byte) (s : State) : (afterPhase c s).cfgWires = s.cfgWires := rfl
@[simp] theorem afterPhase_cfgHz (c : Byte) (s : State) : (afterPhase c s).cfgHz = s.cfgHz := rfl
@[simp] theorem afterPhase_wMode (c : Byte) (s : State) : (afterPhase c s).wMode = s.wMode := rfl
@[simp] theorem afterPhase_wWires (c : Byte) (s : State) : (afterPhase c s).wWires = s.wWires := rfl
@[simp] theorem afterPhase_wHz (c : Byte) (s : State) : (afterPhase c s).wHz = s.wHz := rfl
@[simp] theorem afterPhase_cfgbyte (c : Byte) (s : State) : (afterPhase c s).cfgbyte = c := rfl
@[simp] theorem afterPhase_rb (c : Byte) (s : State) : (afterPhase c s).rb = s.devByte := rfl
@[simp] theorem afterPhase_stale (c : Byte) (s : State) : (afterPhase c s).stale = s.stale := rfl
@[simp] theorem afterPhase_raw (c : Byte) (s : State) : (afterPhase c s).raw = s.raw := rfl
@[simp] theorem afterPhase_fsb (c : Byte) (s : State) : (afterPhase c s).fsb = s.fsb := rfl
@[simp] theorem afterPhase_pend (c : Byte) (s : State) : (afterPhase c s).pend = s.pend := rfl
@[simp] theorem afterPhase_rspValid (c : Byte) (s : State) : (afterPhase c s).rspValid = s.rspValid := rfl
@[simp] theorem afterPhase_rspStatus (c : Byte) (s : State) : (afterPhase c s).rspStatus = s.rspStatus := rfl
@[simp] theorem afterPhase_resultValid (c : Byte) (s : State) : (afterPhase c s).resultValid = s.resultValid := rfl
@[simp] theorem afterPhase_tempC (c : Byte) (s : State) : (afterPhase c s).tempC = s.tempC := rfl
@[simp] theorem afterPhase_tempK (c : Byte) (s : State) : (afterPhase c s).tempK = s.tempK := rfl
@[simp] theorem afterPhase_tempF (c : Byte) (s : State) : (afterPhase c s).tempF = s.tempF := rfl
@[simp] theorem afterPhase_cmdValid (c : Byte) (s : State) : (afterPhase c s).cmdValid = s.cmdValid := rfl
@[simp] theorem afterPhase_cmdWord (c : Byte) (s : State) : (afterPhase c s).cmdWord = s.cmdWord := rfl
@[simp] theorem afterPhase_cmd (c : Byte) (s : State) : (afterPhase c s).cmd = s.cmd := rfl
@[simp] theorem afterPhase_history (c : Byte) (s : State) : (afterPhase c s).history = s.history ++ phaseEvents c s.devByte := rfl
@[simp] theorem afterPhase_responses (c : Byte) (s : State) : (afterPhase c s).responses = s.responses := rfl
@[simp] theorem afterPhase_devBytes (c : Byte) (s : State) : (afterPhase c s).devBytes = s.devBytes.tail := rfl
@[simp] theorem afterPhase_devReadies (c : Byte) (s : State) : (afterPhase c s).devReadies = s.devReadies := rfl
@[simp] theorem afterPhase_draws (c : Byte) (s : State) : (afterPhase c s).draws = s.draws + 1 := rfl
@[simp] theorem afterPhase_agenda (c : Byte) (s : State) : (afterPhase c s).agenda = s.agenda := rfl

/-! ### afterFetch -/

@[simp] theorem afterFetch_st (s : State) : (afterFetch s).st = s.st := by simp [afterFetch]
@[simp] theorem afterFetch_armed (s : State) : (afterFetch s).armed = s.armed := by simp [afterFetch]
@[simp] theorem afterFetch_ctx (s : State) : (afterFetch s).ctx = s.ctx := by simp [afterFetch]
@[simp] theorem afterFetch_csReq (s : State) : (afterFetch s).csReq = s.csReq := by simp [afterFetch]
@[simp] theorem afterFetch_cfgValid (s : State) : (afterFetch s).cfgValid = s.cfgValid := by simp [afterFetch]
@[simp] theorem afterFetch_cfgMode (s : State) : (afterFetch s).cfgMode = s.cfgMode := by simp [afterFetch]
@[simp] theorem afterFetch_cfgWires (s : State) : (afterFetch s).cfgWires = s.cfgWires := by simp [afterFetch]
@[simp] theorem afterFetch_cfgHz (s : State) : (afterFetch s).cfgHz = s.cfgHz := by simp [afterFetch]
@[simp] theorem afterFetch_wMode (s : State) : (afterFetch s).wMode = s.wMode := by simp [afterFetch]
@[simp] theorem afterFetch_wWires (s : State) : (afterFetch s).wWires = s.wWires := by simp [afterFetch]
@[simp] theorem afterFetch_wHz (s : State) : (afterFetch s).wHz = s.wHz := by simp [afterFetch]
@[simp] theorem afterFetch_cfgbyte (s : State) : (afterFetch s).cfgbyte = s.cfgbyte := by simp [afterFetch]
@[simp] theorem afterFetch_rb (s : State) : (afterFetch s).rb = s.rb := by simp [afterFetch]
@[simp] theorem afterFetch_stale (s : State) : (afterFetch s).stale = (!s.devReady) := by simp [afterFetch]
@[simp] theorem afterFetch_raw (s : State) : (afterFetch s).raw = s.popReady.devByte ++ s.popReady.popByte.devByte := by
  simp [afterFetch, State.devByte]
@[simp] theorem afterFetch_fsb (s : State) : (afterFetch s).fsb = s.fsb := by simp [afterFetch]
@[simp] theorem afterFetch_pend (s : State) : (afterFetch s).pend = s.pend := by simp [afterFetch]
@[simp] theorem afterFetch_rspValid (s : State) : (afterFetch s).rspValid = s.rspValid := by simp [afterFetch]
@[simp] theorem afterFetch_rspStatus (s : State) : (afterFetch s).rspStatus = s.rspStatus := by simp [afterFetch]
@[simp] theorem afterFetch_resultValid (s : State) : (afterFetch s).resultValid = s.resultValid := by simp [afterFetch]
@[simp] theorem afterFetch_tempC (s : State) : (afterFetch s).tempC = s.tempC := by simp [afterFetch]
@[simp] theorem afterFetch_tempK (s : State) : (afterFetch s).tempK = s.tempK := by simp [afterFetch]
@[simp] theorem afterFetch_tempF (s : State) : (afterFetch s).tempF = s.tempF := by simp [afterFetch]
@[simp] theorem afterFetch_cmdValid (s : State) : (afterFetch s).cmdValid = s.cmdValid := by simp [afterFetch]
@[simp] theorem afterFetch_cmdWord (s : State) : (afterFetch s).cmdWord = s.cmdWord := by simp [afterFetch]
@[simp] theorem afterFetch_cmd (s : State) : (afterFetch s).cmd = s.cmd := by simp [afterFetch]
@[simp] theorem afterFetch_history (s : State) : (afterFetch s).history = s.history ++ [.rdy s.devReady, .busRd 0x01 2 [s.popReady.devByte, s.popReady.popByte.devByte]] := by
  simp [afterFetch, State.devByte]
@[simp] theorem afterFetch_responses (s : State) : (afterFetch s).responses = s.responses := by simp [afterFetch]
@[simp] theorem afterFetch_devBytes (s : State) : (afterFetch s).devBytes = s.devBytes.tail.tail := by simp [afterFetch]
@[simp] theorem afterFetch_devReadies (s : State) : (afterFetch s).devReadies = s.devReadies.tail := by simp [afterFetch]
@[simp] theorem afterFetch_draws (s : State) : (afterFetch s).draws = s.draws + 1 + 1 + 1 := by simp [afterFetch]
@[simp] theorem afterFetch_agenda (s : State) : (afterFetch s).agenda = s.agenda := by simp [afterFetch]

/-! ### afterFaultFetch -/

@[simp] theorem afterFaultFetch_st (s : State) : (afterFaultFetch s).st = s.st := by simp [afterFaultFetch]
@[simp] theorem afterFaultFetch_armed (s : State) : (afterFaultFetch s).armed = s.armed := by simp [afterFaultFetch]
@[simp] theorem afterFaultFetch_ctx (s : State) : (afterFaultFetch s).ctx = s.ctx := by simp [afterFaultFetch]
@[simp] theorem afterFaultFetch_csReq (s : State) : (afterFaultFetch s).csReq = s.csReq := by simp [afterFaultFetch]
@[simp] theorem afterFaultFetch_cfgValid (s : State) : (afterFaultFetch s).cfgValid = s.cfgValid := by simp [afterFaultFetch]
@[simp] theorem afterFaultFetch_cfgMode (s : State) : (afterFaultFetch s).cfgMode = s.cfgMode := by simp [afterFaultFetch]
@[simp] theorem afterFaultFetch_cfgWires (s : State) : (afterFaultFetch s).cfgWires = s.cfgWires := by simp [afterFaultFetch]
@[simp] theorem afterFaultFetch_cfgHz (s : State) : (afterFaultFetch s).cfgHz = s.cfgHz := by simp [afterFaultFetch]
@[simp] theorem afterFaultFetch_wMode (s : State) : (afterFaultFetch s).wMode = s.wMode := by simp [afterFaultFetch]
@[simp] theorem afterFaultFetch_wWires (s : State) : (afterFaultFetch s).wWires = s.wWires := by simp [afterFaultFetch]
@[simp] theorem afterFaultFetch_wHz (s : State) : (afterFaultFetch s).wHz = s.wHz := by simp [afterFaultFetch]
@[simp] theorem afterFaultFetch_cfgbyte (s : State) : (afterFaultFetch s).cfgbyte = s.cfgbyte := by simp [afterFaultFetch]
@[simp] theorem afterFaultFetch_rb (s : State) : (afterFaultFetch s).rb = s.rb := by simp [afterFaultFetch]
@[simp] theorem afterFaultFetch_stale (s : State) : (afterFaultFetch s).stale = s.stale := by simp [afterFaultFetch]
@[simp] theorem afterFaultFetch_raw (s : State) : (afterFaultFetch s).raw = s.raw := by simp [afterFaultFetch]
@[simp] theorem afterFaultFetch_fsb (s : State) : (afterFaultFetch s).fsb = s.devByte := by simp [afterFaultFetch]
@[simp] theorem afterFaultFetch_pend (s : State) : (afterFaultFetch s).pend = (classify s.devByte).code := by simp [afterFaultFetch]
@[simp] theorem afterFaultFetch_rspValid (s : State) : (afterFaultFetch s).rspValid = s.rspValid := by simp [afterFaultFetch]
@[simp] theorem afterFaultFetch_rspStatus (s : State) : (afterFaultFetch s).rspStatus = s.rspStatus := by simp [afterFaultFetch]
@[simp] theorem afterFaultFetch_resultValid (s : State) : (afterFaultFetch s).resultValid = s.resultValid := by simp [afterFaultFetch]
@[simp] theorem afterFaultFetch_tempC (s : State) : (afterFaultFetch s).tempC = s.tempC := by simp [afterFaultFetch]
@[simp] theorem afterFaultFetch_tempK (s : State) : (afterFaultFetch s).tempK = s.tempK := by simp [afterFaultFetch]
@[simp] theorem afterFaultFetch_tempF (s : State) : (afterFaultFetch s).tempF = s.tempF := by simp [afterFaultFetch]
@[simp] theorem afterFaultFetch_cmdValid (s : State) : (afterFaultFetch s).cmdValid = s.cmdValid := by simp [afterFaultFetch]
@[simp] theorem afterFaultFetch_cmdWord (s : State) : (afterFaultFetch s).cmdWord = s.cmdWord := by simp [afterFaultFetch]
@[simp] theorem afterFaultFetch_cmd (s : State) : (afterFaultFetch s).cmd = s.cmd := by simp [afterFaultFetch]
@[simp] theorem afterFaultFetch_history (s : State) : (afterFaultFetch s).history = s.history ++ [.busRd 0x07 1 [s.devByte]] := by simp [afterFaultFetch]
@[simp] theorem afterFaultFetch_responses (s : State) : (afterFaultFetch s).responses = s.responses := by simp [afterFaultFetch]
@[simp] theorem afterFaultFetch_devBytes (s : State) : (afterFaultFetch s).devBytes = s.devBytes.tail := by simp [afterFaultFetch]
@[simp] theorem afterFaultFetch_devReadies (s : State) : (afterFaultFetch s).devReadies = s.devReadies := by simp [afterFaultFetch]
@[simp] theorem afterFaultFetch_draws (s : State) : (afterFaultFetch s).draws = s.draws + 1 := by simp [afterFaultFetch]
@[simp] theorem afterFaultFetch_agenda (s : State) : (afterFaultFetch s).agenda = s.agenda := by simp [afterFaultFetch]

/-! ### Answers and micro-states -/

@[simp] theorem afterPhase_devByte (c : Byte) (s : State) : (afterPhase c s).devByte = s.popByte.devByte :=
  State.devByte_congr (by simp) (by simp)

@[simp] theorem afterFetch_devByte (s : State) :
    (afterFetch s).devByte = s.popReady.popByte.popByte.devByte :=
  State.devByte_congr (by simp) (by simp)

@[simp] theorem afterFaultFetch_devByte (s : State) : (afterFaultFetch s).devByte = s.popByte.devByte :=
  State.devByte_congr (by simp) (by simp)

/-- Where a configuring sequence ends, whatever its outcome: idle, with the port, the moves and the temperatures
as they were, and with `pend` reported when it was a retry (R83). -/
theorem configuringRun_ends (s : State) :
    (configuringRun s).micro = some .idle ∧ (configuringRun s).cmdValid = s.cmdValid ∧
    (configuringRun s).agenda = s.agenda ∧ (configuringRun s).ctx = false ∧
    (s.ctx = true → (configuringRun s).rspStatus = s.pend) := by
  unfold configuringRun
  dsimp only
  split
  · refine ⟨rfl, by simp, by simp, by simp, fun h => ?_⟩
    simp [h]
  · split
    · refine ⟨rfl, by simp, by simp, by simp, fun h => ?_⟩
      simp [h]
    · refine ⟨rfl, by simp, by simp, by simp, fun h => ?_⟩
      simp [h]

end Sys2Proof.Safety
end

