-- ==== Sys2Proof/Tests/Slice0.lean ====
section
/-! SUPPORT. Tests: expected results are those of spec/ (the vector's or rule's name stands beside each), and for
each statement with hypotheses a state or operands that meet them. -/

namespace Sys2Proof.Tests

open Sys2Proof.Machine Sys2Proof.Safety

/-! ### States for the tests -/

/-- A micro-state inside or outside the sequence of `START AUTOMATIC, 3, 50`, everything else as after reset. -/
def working (m : MicroState) : State :=
  { State.reset with
    st := m.code, csReq := m.inCriticalSection, wMode := 1, wWires := 3, wHz := 50
    cfgbyte := 0x93, rb := 0x93, cmd := some 0x00320305#32 }

/-- A word on the port of the sequencer after reset. -/
def waiting (w : Word) : State := { State.reset with cmdValid := true, cmdWord := w }

/-- The same, the device having chosen its coming bytes. -/
def waitingFor (w : Word) (bytes : List Byte) : State := { waiting w with devBytes := bytes }

/-- The last micro-state of a mode-arm phase of `START AUTOMATIC, 3, 50` that verifies. -/
def verifying : State := { working .cP2CsLeave with cfgbyte := 0xD3, rb := 0xD3 }

/-- `R_CONVERT` of a READ with the given code register. -/
def converting (raw : BitVec 16) : State :=
  { State.reset with st := MicroState.code .rConvert, raw := raw, cmd := some 2#32 }

/-- `R_FAULT` of a READ with or without the stored Configuration (0, 4, 60), the device's fault byte being 0x80. -/
def faulted (stored : Bool) : State :=
  { State.reset with
    st := MicroState.code .rFault, raw := 0x8000, cmd := some 2#32, devBytes := [0x80]
    cfgValid := stored, cfgWires := 4, cfgHz := 60 }

/-- `IDLE` with an armed sequencer of stored Configuration (1, 3, 50). -/
def armedIdle : State :=
  { waiting 0x00320305#32 with armed := true, cfgValid := true, cfgMode := 1, cfgWires := 3, cfgHz := 50 }

/-! ### Well-formedness: one ill-formed command for each check -/

theorem test_mode_4_is_ill_formed : ¬ (Instr.start 4 3 50).WellFormed := by decide

theorem test_wires_256_is_ill_formed : ¬ (Instr.start 1 256 50).WellFormed := by decide

theorem test_hz_256_is_ill_formed : ¬ (Instr.start 1 3 256).WellFormed := by decide

theorem test_field_limits_are_well_formed :
    (Instr.start 3 255 255).WellFormed ∧ (Instr.start 0 0 0).WellFormed ∧ Instr.read.WellFormed := by decide

/-! ### Decoding: words written out from the layout of R49, results from 95_test_vectors.md 2.1 and 2.2 -/

/-- V-DEC7 `START AUTOMATIC, 3, 50`: HZ 50, WIRES 3, MODE 1, OP 01. -/
theorem test_decode_start_automatic :
    decode 0b00000000_00110010_00000011_0000_01_01#32 = .command (.start 1 3 50) := by decide

/-- V-VAL10 `START MODE(3), 255, 255`: every operand bit set. -/
theorem test_decode_start_all_ones :
    decode 0b00000000_11111111_11111111_0000_11_01#32 = .command (.start 3 255 255) := by decide

/-- V-DEC3 `READ`. -/
theorem test_decode_read : decode 0b00000000000000000000000000000010#32 = .command .read := by decide

/-- V-DEC1, V-DEC4, V-DEC5, V-DEC6, V-DEC8, V-DEC9, each refused for the reason the table gives. -/
theorem test_decode_reserved :
    decode 0b00000000000000000000000000000000#32 = .reserved .op00 ∧
    decode 0b00000000000000000000000000000011#32 = .reserved .op11 ∧
    decode 0b00000000000000000000000000000110#32 = .reserved .readBits31to2 ∧
    decode 0b10000000000000000000000000000010#32 = .reserved .readBits31to2 ∧
    decode 0b00000000_00110010_00000011_0001_01_01#32 = .reserved .startBits7to4 ∧
    decode 0b00000001_00110010_00000011_0000_01_01#32 = .reserved .startBits31to24 := by decide

/-- The words 95_test_vectors.md gives for V-VAL1, V-VAL8 and READ. -/
theorem test_encode :
    encode (.start 0 5 60) = 0x003C0501#32 ∧ encode (.start 3 3 60) = 0x003C030D#32 ∧
    encode .read = 0x00000002#32 := by decide

theorem test_table_word :
    decodeTableWord 32 0x00320305 = some (.start 1 3 50) ∧ decodeTableWord 32 2 = some .read ∧
    decodeTableWord 32 3 = none := by decide

/-- R57: lines of assembler text and the commands they stand for. -/
theorem test_assemble :
    assembleLine "START AUTOMATIC, 3, 50".toList = some (.start 1 3 50) ∧
    assembleLine "START MODE(2), 2, 50 ; a mode error".toList = some (.start 2 2 50) ∧
    assembleLine "READ".toList = some .read ∧
    assembleLine "START ONESHOT, 256, 50".toList = none := by decide

/-! ### START and READ: the step that runs them first after reset -/

/-- V-VAL1 `START ONESHOT, 5, 60`: `WIRE_INPUT_ERROR`, one step, no event. -/
theorem test_start_input_error :
    ∃ t, step (State.reset.withFetchWord 32 0x003C0501) = .next t ∧ t.st = 0 ∧ t.rspStatus = 2 ∧
      t.rspValid = true ∧ t.history = [] := ⟨_, rfl, rfl, rfl, rfl, rfl⟩

/-- V-DEC10 `START ONESHOT, 4, 60` enters the configuring sequence with its operands. -/
theorem test_start_enters_the_sequence :
    ∃ t, step (State.reset.withFetchWord 32 0x003C0401) = .next t ∧ t.st = 1 ∧ t.wMode = 0 ∧ t.wWires = 4 ∧
      t.wHz = 60 ∧ t.cmdValid = false := ⟨_, rfl, rfl, rfl, rfl, rfl, rfl⟩

/-- R86: READ goes to `R_READY` with the output flags cleared. -/
theorem test_read_goes_to_r_ready :
    ∃ t, step (State.reset.withFetchWord 32 2) = .next t ∧ t.st = 10 ∧ t.rspValid = false :=
  ⟨_, rfl, rfl, rfl⟩

/-- V-CV1 (S1): code 7227 gives −30.00 °C, 243.15 K, −22.000 °F. -/
theorem test_convert_7227 : convert 7227#15 = some ⟨-3000, 24315, -22000⟩ := by
  have hi := tableIndex_of_inRange (code := 7227#15) (by decide)
    (show (7227 : Nat) < 7227 + Config.table.len by have := Config.table.len_ge; omega)
  rw [convert_of_tableIndex hi]
  exact congrArg (fun c : Int => some (Reading.mk c (c + 27315) (18 * c + 32000))) Config.table.entry_0

/-- V-CV: the code just below the calibrated range. -/
theorem test_convert_7226 : convert 7226#15 = none :=
  (convert_eq_none_iff _).mpr ((tableIndex_eq_none_iff _).mpr (.inl (by decide)))

/-! ### Reserved words, faults -/

theorem test_reserved_word_is_refused :
    step (waiting 0x00320315#32) = .refused (.reservedCommandWord .startBits7to4) := by rfl

/-- R55: at each boundary of ReservedWordsAreRefused's clauses. -/
theorem test_reserved_boundaries :
    step (waiting 0#32) = .refused (.reservedCommandWord .op00) ∧
    step (waiting 3#32) = .refused (.reservedCommandWord .op11) ∧
    step (waiting 0x81#32) = .refused (.reservedCommandWord .startBits7to4) ∧
    step (waiting 0x01000001#32) = .refused (.reservedCommandWord .startBits31to24) ∧
    step (waiting 6#32) = .refused (.reservedCommandWord .readBits31to2) := ⟨rfl, rfl, rfl, rfl, rfl⟩

/-- R14, X2: the boundaries of FaultsOfTheStep. -/
theorem test_fault_boundaries :
    step { State.reset with st := 14 } = .fault .unreachableMicroState ∧
    step { State.reset with st := 31 } = .fault .unreachableMicroState ∧
    step { State.reset with rspStatus := 11 } = .fault .reservedStatusCode ∧
    step { State.reset with rspStatus := 10 } = .next { State.reset with rspStatus := 10 } :=
  ⟨rfl, rfl, rfl, rfl⟩

/-! ### Configuration bytes and classification: spec/95_test_vectors.md 2.3 and 2.5 -/

/-- V-CB1 to V-CB8. -/
theorem test_configuration_bytes :
    (cfgPhase1 2 50 = 0x83 ∧ cfgPhase2 0 2 50 = 0xA3) ∧ (cfgPhase1 2 60 = 0x82 ∧ cfgPhase2 1 2 60 = 0xC2) ∧
    (cfgPhase1 3 50 = 0x93 ∧ cfgPhase2 0 3 50 = 0xB3 ∧ cfgPhase2 1 3 50 = 0xD3) ∧
    (cfgPhase1 3 60 = 0x92 ∧ cfgPhase2 0 3 60 = 0xB2 ∧ cfgPhase2 1 3 60 = 0xD2) ∧
    (cfgPhase1 4 60 = 0x82 ∧ cfgPhase2 0 4 60 = 0xA2) ∧ (cfgPhase1 4 50 = 0x83 ∧ cfgPhase2 1 4 50 = 0xC3) := by
  decide

/-- V-CL1, V-CL2, V-CL5, V-CL6, V-CL7, V-CL12, V-CL15. -/
theorem test_classification :
    classify 0x00 = .unknownError ∧ classify 0x01 = .circuitMalfunction ∧ classify 0x07 = .circuitMalfunction ∧
    classify 0x08 = .brokenRtdWire ∧ classify 0x09 = .brokenRtdWire ∧ classify 0x80 = .brokenRtdWire ∧
    classify 0xFF = .brokenRtdWire := by decide

/-! ### Witnesses: hypotheses on a state's place -/

/-- The hypothesis of every step rule: the sequencer stands at each micro-state. -/
theorem test_witness_at (m : MicroState) : At (working m) m :=
  ⟨MicroState.ofCode_code m, by simp [working, State.reset, Status.ofCode], rfl⟩

/-- The same with a next state: every micro-state other than `IDLE` steps. -/
theorem test_witness_at_steps (m : MicroState) (h : m ≠ .idle) :
    step (working m) = .next (microStep m (working m)) := step_at_of_nil (test_witness_at m) rfl h

/-- The same while other agents' moves stand behind the sequencer's own, as between the steps of a READ (R43). -/
theorem test_witness_at_before_other_moves (m : MicroState) :
    At { working m with agenda := [.seq, .otherBus [0x80] 0, .platWait] } m :=
  ⟨MicroState.ofCode_code m, by simp [working, State.reset, Status.ofCode], rfl⟩

/-- R87 with OTHER's move behind it: the step is the sequencer's, and OTHER's move comes next. -/
theorem test_step_with_moves_behind :
    ∃ t, step { working .rReady with agenda := [.seq, .otherBus [0x01] 2] } = .next t ∧ t.st = 11 ∧
      t.agenda = [.otherBus [0x01] 2] := ⟨_, rfl, rfl, rfl⟩

/-- `At` in `IDLE` with a word, of each outcome, on the port. -/
theorem test_witness_at_idle_with_word (w : Word) : At (waiting w) .idle ∧ (waiting w).cmdValid = true :=
  ⟨⟨rfl, by simp [waiting, State.reset, Status.ofCode], rfl⟩, rfl⟩

/-- `At` in `IDLE` with nothing presented. -/
theorem test_witness_at_idle_without_word : At State.reset .idle ∧ State.reset.cmdValid = false :=
  ⟨⟨rfl, by simp [State.reset, Status.ofCode], rfl⟩, rfl⟩

/-- VerificationComparesEveryBit: a state for each clause. -/
theorem test_witness_verification :
    At (working .cP1CsLeave) .cP1CsLeave ∧ At verifying .cP2CsLeave ∧ verifying.armed = false :=
  ⟨test_witness_at _, ⟨rfl, by simp [verifying, working, State.reset, Status.ofCode], rfl⟩, rfl⟩

/-- BusyCommandIsTurnedAway. -/
theorem test_witness_busy : (working .cDelay).micro ≠ some .idle := by decide

/-- StartAcceptance and ReadAcceptance: after reset, and the three input errors and the valid case at their
boundary values (V-VAL1, V-VAL4, V-VAL7, V-DEC10). -/
theorem test_witness_acceptance :
    (State.reset.micro = some .idle ∧ State.reset.ctx = false) ∧
    inputError 0 5 60 = some .wireInputError ∧ inputError 0 3 55 = some .hzInputError ∧
    inputError 2 2 50 = some .modeInputError ∧ inputError 2 3 55 = some .hzInputError ∧
    inputError 0 4 60 = none ∧ inputError 1 2 50 = none := by decide

/-- StartRunsAsWritten, StartHistories, StartStoresItsInputsOrNothing: a valid and an invalid START wait. -/
theorem test_witness_start_awaits :
    Awaits (waiting 0x00320305#32) (.start 1 3 50) ∧ Awaits (waiting 0x003C0501#32) (.start 0 5 60) :=
  ⟨⟨rfl, rfl, by simp [waiting, State.reset, Status.ofCode], rfl, rfl, by decide⟩,
   ⟨rfl, rfl, by simp [waiting, State.reset, Status.ofCode], rfl, rfl, by decide⟩⟩

/-- StartAgainstAnEchoingDevice: a device script that echoes (V-ST1's device), and one that does not. -/
theorem test_witness_echo :
    Awaits (waitingFor 0x00320305#32 [0x93, 0xD3]) (.start 1 3 50) ∧ inputError 1 3 50 = none ∧
    echoes none (startRun 1 3 50 (waitingFor 0x00320305#32 [0x93, 0xD3])).history = true ∧
    echoes none (startRun 1 3 50 (waitingFor 0x00320305#32 [0xFF, 0xD3])).history = false :=
  ⟨⟨rfl, rfl, by simp [waitingFor, waiting, State.reset, Status.ofCode], rfl, rfl, by decide⟩,
   by decide, rfl, rfl⟩

/-- StartHistories: a device for each of its last three cases (V-ST3, V-ST4 and V-ST1 with other operands): the first
answer differs from 0x93, the second from 0xD3, neither does. -/
theorem test_witness_start_histories :
    (waitingFor 0x00320305#32 [0xFF]).devByte ≠ cfgPhase1 3 50 ∧
    ((waitingFor 0x00320305#32 [0x93, 0x83]).devByte = cfgPhase1 3 50 ∧
      (waitingFor 0x00320305#32 [0x93, 0x83]).popByte.devByte ≠ cfgPhase2 1 3 50 ∧
      Awaits (waitingFor 0x00320305#32 [0x93, 0x83]) (.start 1 3 50)) ∧
    (waitingFor 0x00320305#32 [0x93, 0xD3]).popByte.devByte = cfgPhase2 1 3 50 :=
  ⟨by decide, ⟨by decide, by decide, rfl, rfl, by simp [waitingFor, waiting, State.reset, Status.ofCode], rfl, rfl,
    test_decode_start_automatic⟩, by decide⟩

/-- ClassifyFaultAndRetry: `R_FAULT` with a stored Configuration enters the retry, and without one completes. -/
theorem test_witness_fault_with_configuration :
    At (faulted true) .rFault ∧ (faulted true).cfgValid = true ∧
    (∃ t, step (faulted true) = .next t ∧ t.st = 1 ∧ t.ctx = true ∧ t.pend = 7) ∧
    At (faulted false) .rFault ∧ (∃ t, step (faulted false) = .next t ∧ t.st = 0 ∧ t.rspStatus = 7) :=
  ⟨⟨rfl, by simp [faulted, State.reset, Status.ofCode], rfl⟩, rfl, ⟨_, rfl, rfl, rfl, rfl⟩,
   ⟨rfl, by simp [faulted, State.reset, Status.ofCode], rfl⟩, ⟨_, rfl, rfl, rfl⟩⟩

/-- ReadRunsAsWritten and the other statements of a whole READ: one waits with a stored Configuration (0, 4, 60), and
the device answers with a set fault flag (S4), so that the retry runs. -/
theorem test_witness_read_awaits_with_configuration :
    Awaits { waitingFor 2#32 [0x80, 0x00, 0x80, 0x82, 0xA2] with cfgValid := true, cfgWires := 4, cfgHz := 60 } .read ∧
    (readRun { waitingFor 2#32 [0x80, 0x00, 0x80, 0x82, 0xA2] with
      cfgValid := true, cfgWires := 4, cfgHz := 60 }).rspStatus = 7 ∧
    (readRun { waitingFor 2#32 [0x80, 0x00, 0x80, 0x82, 0xA2] with
      cfgValid := true, cfgWires := 4, cfgHz := 60 }).armed = true :=
  ⟨⟨rfl, rfl, by simp [waitingFor, waiting, State.reset, Status.ofCode], rfl, rfl, test_decode_read⟩, rfl, rfl⟩

/-- ReadRunsAsWritten, ReadHistories, ReadKeepsTheConfiguration, ReadStatusPriority: a READ waits, and the bytes
of each case of the priority can be the device's: a set fault flag, codes 7226 and 7227, and a stale sample. -/
theorem test_witness_read_awaits (bytes : List Byte) :
    Awaits (waitingFor 2#32 bytes) .read :=
  ⟨rfl, rfl, by simp [waitingFor, waiting, State.reset, Status.ofCode], rfl, rfl, test_decode_read⟩

/-- ReadWithoutRetryTakesFourSteps: either side of its disjunction. -/
theorem test_witness_read_without_retry :
    (waitingFor 2#32 [0x7F, 0xFF]).popReady.devByte.getLsbD 7 = false ∧
    (waitingFor 2#32 [0x80, 0x00]).popReady.devByte.getLsbD 7 = true ∧
    (waitingFor 2#32 [0x80, 0x00]).cfgValid = false := by decide

/-- FaultPathNeverNests: a configuring micro-state inside a retry. -/
theorem test_witness_retry :
    At { working .cDelay with ctx := true, pend := 7 } .cDelay ∧ MicroState.configuring .cDelay = true ∧
    ∃ t, step { working .cDelay with ctx := true, pend := 7 } = .next t :=
  ⟨⟨rfl, by simp [working, State.reset, Status.ofCode], rfl⟩, rfl, ⟨_, rfl⟩⟩

/-! ### Witnesses: conversion -/

/-- ConversionOfEveryCode: both ends of the calibrated range, and the codes beside them. -/
theorem test_witness_conversion_range :
    (7227 ≤ (7227#15).toNat ∧ (7227#15).toNat < 7227 + Config.table.len) ∧
    (7227 ≤ (14406#15).toNat ∧ (14406#15).toNat < 7227 + Config.table.len) ∧
    ¬ (7227 ≤ (7226#15).toNat ∧ (7226#15).toNat < 7227 + Config.table.len) := by
  have := Config.table.len_ge
  simp only [BitVec.toNat_ofNat, Nat.reduceMod, Nat.reducePow]
  omega

/-- ConversionFitsTheRegisters. -/
theorem test_witness_conversion_result : ∃ r, convert 7227#15 = some r := ⟨_, test_convert_7227⟩

/-- ConversionIsMonotone. -/
theorem test_witness_monotone :
    7227 ≤ (7227#15).toNat ∧ (7227#15).toNat ≤ (14406#15).toNat ∧ (14406#15).toNat ≤ Config.maxCode := by
  have := Config.table.len_ge
  simp only [BitVec.toNat_ofNat, Nat.reduceMod, Nat.reducePow, Config.maxCode, Config.minCode]
  omega

/-! ### Witnesses: invariants and whole-machine rules -/

/-- The invariants I1 to I8 hold in every micro-state of a configuring sequence. -/
theorem test_witness_machine_inv (m : MicroState) (h : m.configuring = true) : MachineInv (working m) := by
  have hm : (working m).micro = some m := MicroState.ofCode_code m
  refine ⟨by rw [hm]; simp, by simp [working, State.reset, Status.ofCode], ?_, ?_, ?_, ?_, ?_, ?_, ?_, ?_⟩
  · intro hq; cases hq
  · intro hq; cases hq
  · rw [hm]
    exact ⟨fun hq => ⟨m, rfl, hq⟩, fun ⟨m', e, hq⟩ => by cases e; exact hq⟩
  · rw [hm]
    intro e
    cases e
    cases h
  · intro _; exact ⟨rfl, rfl⟩
  · intro hq; cases hq
  · intro hq; cases hq
  · intro _ _ _; simp [working, LegalOperands]

/-- StepKeepsTheInvariants, StepKeepsTheSequenceInvariant, StepKeepsTheCommandInvariant,
StepKeepsTheHistoryInvariant: all premises at once, in the step that arms the sequencer. -/
theorem test_witness_invariants :
    MachineInv verifying ∧ SequenceInv verifying ∧ CommandInv verifying ∧ HistoryInv verifying ∧
    ∃ t, step verifying = .next t ∧ t.armed = true := by
  have hm : verifying.micro = some .cP2CsLeave := rfl
  have hi := test_witness_machine_inv .cP2CsLeave rfl
  refine ⟨⟨hi.st_legal, hi.status_legal, hi.armed_valid, hi.cfg_legal, hi.cs_req, hi.idle_clear, hi.busy_silent,
    hi.result_status, hi.retry_fault, hi.operands_legal⟩, ⟨?_, ?_, ?_, ?_⟩, ⟨?_, ?_, ?_⟩, ?_, ⟨_, rfl, rfl⟩⟩
  · intro m e hc; rw [hm] at e; cases e; cases hc
  · intros; rfl
  · rw [hm]; intro e; rcases e with e | e | e <;> cases e
  · intros; rfl
  · rw [hm]; intro e; cases e
  · intros; exact ⟨0x00320305#32, 1, 3, 50, rfl, by decide, rfl, rfl, rfl⟩
  · intro m e _ hq; rw [hm] at e; cases e; rcases hq with hq | hq <;> cases hq
  · intro e he; cases he

/-- OnlyAVerifiedSequenceStoresAConfiguration, and ArmedRisesAndFalls, first clause. -/
theorem test_witness_stores :
    ∃ t, step verifying = .next t ∧ nextMove verifying ≠ .reset ∧ t.cfgValid ≠ verifying.cfgValid ∧
      verifying.armed = false ∧ t.armed = true := ⟨_, rfl, by decide, by decide, rfl, rfl⟩

/-- ArmedRisesAndFalls, second clause: a START accepted while armed. -/
theorem test_witness_disarms :
    ∃ t, step armedIdle = .next t ∧ nextMove armedIdle ≠ .reset ∧ armedIdle.armed = true ∧ t.armed = false :=
  ⟨_, rfl, by decide, rfl, rfl⟩

/-- OnlyConversionWritesTemperatures: the conversion of code 7227. -/
theorem test_witness_temperatures :
    ∃ t, step (converting 7227#16) = .next t ∧ nextMove (converting 7227#16) ≠ .reset ∧
      t.tempC ≠ (converting 7227#16).tempC := by
  refine ⟨_, step_at_of_nil (m := .rConvert) ⟨rfl, by simp [converting, State.reset, Status.ofCode], rfl⟩ rfl
    (by decide),
    by decide, ?_⟩
  have h : convert (rawCode (converting 7227#16).raw) = some ⟨-3000, 24315, -22000⟩ := test_convert_7227
  simp only [microStep, rConvert, h]
  decide

/-- CriticalSectionDiscipline: a step that records an event of each kind it speaks of. -/
theorem test_witness_critical_section :
    (∃ t, step (working .cP1CsEnter) = .next t ∧ t.history = [.csE]) ∧
    (∃ t, step (working .cP1CsLeave) = .next t ∧ t.history = [.csL]) ∧
    (∃ t, step (working .cP1Write) = .next t ∧ t.history = [.busWr 0x00 0x93]) ∧
    (∃ t bytes, step (working .cP1Readback) = .next t ∧ t.history = [.busRd 0x00 1 bytes]) ∧
    (∃ t ms, step (working .cDelay) = .next t ∧ t.history = [.dly ms]) :=
  ⟨⟨_, rfl, rfl⟩, ⟨_, rfl, rfl⟩, ⟨_, rfl, rfl⟩, ⟨_, _, rfl, rfl⟩, ⟨_, _, rfl, rfl⟩⟩

/-- MovesOfTheOtherAgents: OTHER's move on both sides of its condition. -/
theorem test_witness_other :
    step { working .cP1Write with agenda := [.otherBus [0x80] 0] } = .refused .busDutyBroken ∧
    step { working .cDelay with agenda := [.otherBus [0x80] 0] } = .next (working .cDelay) := ⟨rfl, rfl⟩

/-- MovesOfTheOtherAgents: HOST presents a word over a waiting one (X18), DEV chooses after an earlier choice. -/
theorem test_witness_host_and_device :
    (∃ t, step { waiting 2#32 with agenda := [.hostPresent 0x003C0401#32] } = .next t ∧
      t.cmdWord = 0x003C0401#32 ∧ t.cmdValid = true) ∧
    (∃ t, step { waitingFor 2#32 [0x80] with agenda := [.devBytes [0x00]] } = .next t ∧
      t.devBytes = [0x80, 0x00]) ∧
    (∃ t, step { working .rReady with agenda := [.devReady true] } = .next t ∧ t.devReadies = [true]) ∧
    step { working .rReady with agenda := [.platWait] } = .next (working .rReady) :=
  ⟨⟨_, rfl, rfl, rfl⟩, ⟨_, rfl, rfl⟩, ⟨_, rfl, rfl⟩, rfl⟩

/-- ResetArrivesAnywhere: in the middle of a write. -/
theorem test_witness_reset :
    ∃ t, step { working .cP1Write with agenda := [.reset] } = .next t ∧ t.st = 0 ∧ t.csReq = false ∧
      t.history = [] := ⟨_, rfl, rfl, rfl, rfl⟩

/-- CompletionReportsOneStatus: a completion outside a retry, and one inside it, which reports `pend`. -/
theorem test_witness_completion :
    (∃ t, step verifying = .next t ∧ t.micro = some .idle ∧ t.rspStatus = 0) ∧
    (∃ t, step { verifying with ctx := true, pend := 8 } = .next t ∧ t.micro = some .idle ∧ t.rspStatus = 8) :=
  ⟨⟨_, rfl, rfl, rfl⟩, ⟨_, rfl, rfl, rfl⟩⟩

end Sys2Proof.Tests
end

section
/-! PROOFS. The latched command (R11, R68): what a step does to it, and that every step keeps `CommandInv`. -/

namespace Sys2Proof.Safety

open Sys2Proof.Machine

/-! ### What `CommandInv` reads of a state -/

/-- `t` holds the same command as `s`: the latched word, the operands being configured and the retry flag, which
are what `CommandInv` reads beside `st`. -/
structure SameCommand (s t : State) : Prop where
  cmd : t.cmd = s.cmd
  ctx : t.ctx = s.ctx
  wMode : t.wMode = s.wMode
  wWires : t.wWires = s.wWires
  wHz : t.wHz = s.wHz

theorem CommandInv.of_idle {t : State} (hm : t.micro = some .idle) (hc : t.cmd = none) : CommandInv t where
  idle _ := hc
  start m h hconf _ := by
    cases hm.symm.trans h
    cases hconf
  read m h hi _ := by
    cases hm.symm.trans h
    exact absurd rfl hi

/-- A START's own sequence with the operands of its word loaded. -/
theorem CommandInv.of_start {t : State} {m : MicroState} {w : Word} {mode wires hz : Nat}
    (hm : t.micro = some m) (hconf : m.configuring = true) (hctx : t.ctx = false) (hc : t.cmd = some w)
    (hd : decode w = .command (.start mode wires hz)) (hmode : t.wMode = BitVec.ofNat 2 mode)
    (hwires : t.wWires = BitVec.ofNat 8 wires) (hhz : t.wHz = BitVec.ofNat 8 hz) : CommandInv t where
  idle h := by
    cases hm.symm.trans h
    cases hconf
  start _ _ _ _ := ⟨w, mode, wires, hz, hc, hd, hmode, hwires, hhz⟩
  read m' h _ hr := by
    cases hm.symm.trans h
    simp [hconf, hctx] at hr

/-- A READ in one of its own micro-states or in the configuring sequence of its retry. -/
theorem CommandInv.of_read {t : State} {m : MicroState} {w : Word} (hm : t.micro = some m) (hi : m ≠ .idle)
    (hr : m.configuring = false ∨ t.ctx = true) (hc : t.cmd = some w) (hd : decode w = .command .read) :
    CommandInv t where
  idle h := absurd (Option.some.inj (hm.symm.trans h)) hi
  start m' h hconf hctx := by
    cases hm.symm.trans h
    simp [hconf, hctx] at hr
  read _ _ _ _ := ⟨w, hc, hd⟩

/-- The invariant is kept between two micro-states of one kind (`IDLE`, configuring, reading) while the command
stays the same. -/
theorem CommandInv.of_same {s t : State} {m m' : MicroState} (hs : CommandInv s) (same : SameCommand s t)
    (hm : s.micro = some m) (hm' : t.micro = some m') (hidle : m' = .idle ↔ m = .idle)
    (hconf : m'.configuring = m.configuring) : CommandInv t where
  idle h := by
    cases hm'.symm.trans h
    rw [same.cmd]
    exact hs.idle (hidle.mp rfl ▸ hm)
  start m'' h hc hctx := by
    cases hm'.symm.trans h
    rw [same.cmd, same.wMode, same.wWires, same.wHz]
    exact hs.start m hm (hconf ▸ hc) (same.ctx ▸ hctx)
  read m'' h hi hr := by
    cases hm'.symm.trans h
    rw [same.cmd]
    exact hs.read m hm (mt hidle.mpr hi) (hconf ▸ same.ctx ▸ hr)

/-! ### What a micro-state's step does to the command in progress -/

/-- The three ways in which a command goes on from micro-state `m` of `s` to `t`. -/
inductive CommandStep (m : MicroState) (s t : State) : Prop where
  /-- To another micro-state of the configuring sequence or of the reading. -/
  | advances (m' : MicroState) (micro : t.micro = some m') (busy : m' ≠ .idle)
      (kind : m'.configuring = m.configuring) (same : SameCommand s t)
  /-- To `IDLE`: it completes (R83, R93). -/
  | completes (micro : t.micro = some .idle) (cmd : t.cmd = none)
  /-- From `R_FAULT` into the configuring sequence of the retry (R89). -/
  | retries (fault : m = .rFault) (micro : t.micro = some .cP1CsEnter) (ctx : t.ctx = true) (cmd : t.cmd = s.cmd)

theorem CommandStep.of_goto {m m' : MicroState} {s u : State} (same : SameCommand s u) (busy : m' ≠ .idle)
    (kind : m'.configuring = m.configuring) : CommandStep m s (u.goto m') :=
  .advances m' (State.micro_goto u m') busy kind ⟨same.cmd, same.ctx, same.wMode, same.wWires, same.wHz⟩

theorem CommandStep.of_respondConfiguring (m : MicroState) (x : Status) (s u : State) :
    CommandStep m s (respondConfiguring x u) :=
  .completes rfl rfl

theorem CommandStep.of_respondRead (m : MicroState) (x : Status) (s u : State) : CommandStep m s (respondRead x u) :=
  .completes rfl rfl

/-- The fault path retries with a stored Configuration and completes the READ without one. -/
theorem CommandStep.of_takeFault {s u : State} (fs : Byte) (hc : u.cmd = s.cmd) :
    CommandStep .rFault s (takeFault fs u) := by
  rcases takeFault_cases fs u with ⟨-, h⟩ | ⟨-, h⟩
  · rw [h]
    exact .retries rfl rfl rfl hc
  · rw [h]
    exact .of_respondRead ..

theorem microStep_commandStep {m : MicroState} (hi : m ≠ .idle) (s : State) : CommandStep m s (microStep m s) := by
  cases m with
  | idle => exact absurd rfl hi
  | cP1CsEnter | cP1Write | cP1Readback | cDelay | cP2CsEnter | cP2Write | cP2Readback | rReady =>
    exact .of_goto (by constructor <;> simp) (by decide) rfl
  | cP1CsLeave =>
    simp only [microStep, cP1CsLeave]
    split
    · exact .of_respondConfiguring ..
    · exact .of_goto (by constructor <;> simp) (by decide) rfl
  | cP2CsLeave =>
    simp only [microStep, cP2CsLeave]
    split <;> exact .of_respondConfiguring ..
  | rCode =>
    simp only [microStep, rCode]
    split <;> exact .of_goto (by constructor <;> simp) (by decide) rfl
  | rFault => exact .of_takeFault s.devByte rfl
  | rConvert =>
    simp only [microStep, rConvert]
    split <;> exact .of_respondRead ..

/-! ### Every step keeps the invariant -/

theorem CommandStep.keeps_commandInv {m : MicroState} {s t : State} (h : CommandStep m s t)
    (hs : CommandInv s) (hm : s.micro = some m) (hi : m ≠ .idle) : CommandInv t := by
  cases h with
  | advances m' hm' hi' hk same => exact hs.of_same same hm hm' (iff_of_false hi' hi) hk
  | completes hm' hc => exact .of_idle hm' hc
  | retries hf hm' hctx hc =>
    obtain ⟨w, hw, hd⟩ := hs.read m hm hi (.inl (hf ▸ rfl))
    exact .of_read hm' (by decide) (.inr hctx) (hc.trans hw) hd

/-- Acceptance in `IDLE`, the command's word being latched, establishes the invariant. -/
theorem exec_commandInv {i : Instr} {s t : State} {w : Word} (hm : s.micro = some .idle)
    (hc : s.cmd = some w) (hd : decode w = .command i) (h : exec i s = .next t) : CommandInv t := by
  rcases exec_cases i s with ⟨hbusy, -⟩ | ⟨-, mode, wires, hz, e, -, -, he⟩ |
    ⟨-, mode, wires, hz, rfl, -, he⟩ | ⟨-, rfl, he⟩
  · exact absurd hm hbusy
  · cases he.symm.trans h
    exact .of_idle rfl rfl
  · cases he.symm.trans h
    exact .of_start (m := .cP1CsEnter) rfl rfl rfl hc hd rfl rfl rfl
  · cases he.symm.trans h
    exact .of_read (m := .rReady) rfl (by decide) (.inl rfl) hc hd

theorem seqStep_keeps_commandInv {s t : State} (hs : CommandInv s) (h : seqStep s = .next t) :
    CommandInv t := by
  obtain ⟨-, ⟨m, hm, hi, rfl⟩ | ⟨hm, -, i, hd, he⟩ | ⟨-, -, rfl⟩⟩ := seqStep_next_cases h
  · exact (microStep_commandStep hi s).keeps_commandInv hs hm hi
  · exact exec_commandInv (s := takeCommand s) hm rfl hd he
  · exact hs

/-- Settles O53: a step of the sequencer by `seqStep_keeps_commandInv`; reset leaves no command in `IDLE`, and
the moves of the other agents touch nothing that `CommandInv` reads. -/
theorem stepKeepsTheCommandInvariant : Obligations.StepKeepsTheCommandInvariant := by
  intro s t hinv hs h
  obtain ⟨m, hm⟩ := Option.ne_none_iff_exists'.mp hinv.st_legal
  have keeps : ∀ u : State, u.micro = s.micro → SameCommand s u → CommandInv u := fun u hu same =>
    hs.of_same same hm (hu.trans hm) Iff.rfl rfl
  rcases step_next_cases h with ⟨-, hseq⟩ | ⟨w, -, rfl⟩ | ⟨bs, -, rfl⟩ | ⟨b, -, rfl⟩ | ⟨-, rfl⟩ |
    ⟨bs, n, -, -, rfl⟩ | ⟨-, rfl⟩
  · exact seqStep_keeps_commandInv (keeps (takeMove s) rfl ⟨rfl, rfl, rfl, rfl, rfl⟩) hseq
  · exact keeps _ rfl ⟨rfl, rfl, rfl, rfl, rfl⟩
  · exact keeps _ rfl ⟨rfl, rfl, rfl, rfl, rfl⟩
  · exact keeps _ rfl ⟨rfl, rfl, rfl, rfl, rfl⟩
  · exact keeps _ rfl ⟨rfl, rfl, rfl, rfl, rfl⟩
  · exact keeps _ rfl ⟨rfl, rfl, rfl, rfl, rfl⟩
  · exact .of_idle rfl rfl

end Sys2Proof.Safety
end

section
/-! PROOFS. What one step can do, said once for the machine's invariants and rules: each outcome with the
registers it writes, so that no later proof unfolds a micro-state's step. -/

namespace Sys2Proof.Machine

/-! ### Two groups of registers -/

/-- `s` with what a micro-state may write while its command goes on taken from `o`. -/
def State.withProgress (s o : State) : State :=
  { s with
    st := o.st
    csReq := o.csReq
    cfgbyte := o.cfgbyte
    rb := o.rb
    stale := o.stale
    raw := o.raw
    history := o.history
    devBytes := o.devBytes
    devReadies := o.devReadies
    draws := o.draws }

/-- `s` with what is no register of R16 to R21 taken from `o`: the host's port, the latched word, the device's
answers and the agenda. -/
def State.withSurroundings (s o : State) : State :=
  { s with
    cmdValid := o.cmdValid
    cmdWord := o.cmdWord
    cmd := o.cmd
    devBytes := o.devBytes
    devReadies := o.devReadies
    draws := o.draws
    agenda := o.agenda }

/-- The configuration byte is that of the write-and-verify phase `m` belongs to, from its computation on (R73,
R78). -/
def PhaseByte (m : MicroState) (s : State) : Prop :=
  match m with
  | .cP1Write | .cP1Readback | .cP1CsLeave => s.cfgbyte = cfgPhase1 s.wWires s.wHz
  | .cP2CsEnter | .cP2Write | .cP2Readback | .cP2CsLeave => s.cfgbyte = cfgPhase2 s.wMode s.wWires s.wHz
  | .idle | .cP1CsEnter | .cDelay | .rReady | .rCode | .rFault | .rConvert => True

theorem mismatch_eq_true_iff (rb cfgbyte : Byte) : mismatch rb cfgbyte = true ↔ rb ≠ cfgbyte := by
  simp [mismatch]

theorem Status.code_of_hasResult {x : Status} (h : x.hasResult = true) :
    x.code = Status.ok.code ∨ x.code = Status.oldReading.code := by
  cases x with
  | ok => exact .inl rfl
  | oldReading => exact .inr rfl
  | _ => cases h

/-! ### Outcomes -/

/-- The outcomes of the step of micro-state `m` in `s`. -/
inductive MicroOutcome (s : State) : MicroState → State → Prop where
  /-- The command goes on, in the configuring sequence or in the reading as before. -/
  | advances {m m' : MicroState} (o : State) (micro : o.micro = some m') (busy : m' ≠ .idle)
      (kind : m'.configuring = m.configuring)
      (csReq : s.csReq = m.inCriticalSection → o.csReq = m'.inCriticalSection)
      (phaseByte : PhaseByte m s → PhaseByte m' (s.withProgress o))
      (reading : m.configuring = false → o.rb = s.rb ∧ o.cfgbyte = s.cfgbyte) :
      MicroOutcome s m (s.withProgress o)
  /-- The bias phase fails its verification (R76). -/
  | failsBias (differ : s.rb ≠ s.cfgbyte) :
      MicroOutcome s .cP1CsLeave (respondConfiguring .errorPreconfiguring (csLeave s))
  /-- The mode-arm phase fails its verification (R82). -/
  | failsArm (differ : s.rb ≠ s.cfgbyte) :
      MicroOutcome s .cP2CsLeave (respondConfiguring .errorConfiguring (csLeave s))
  /-- The mode-arm phase verifies (R82). -/
  | verifies (agree : s.rb = s.cfgbyte) :
      MicroOutcome s .cP2CsLeave (respondConfiguring .ok (commitConfiguration (csLeave s)))
  /-- The fault path enters the configuring sequence with the stored Configuration (R89). -/
  | retries (stored : s.cfgValid = true) :
      MicroOutcome s .rFault (enterConfiguring s.cfgMode s.cfgWires s.cfgHz true
        ((memRead1 (DeviceReg.readAddress .faultStatus) s).saveFault s.devByte))
  /-- Without a stored Configuration the fault path reports the fault (R89). -/
  | reportsFault (notStored : s.cfgValid = false) :
      MicroOutcome s .rFault (respondRead (classify s.devByte)
        ((memRead1 (DeviceReg.readAddress .faultStatus) s).saveFault s.devByte))
  /-- The code is out of range (R92). -/
  | outOfRange (noReading : convert (rawCode s.raw) = none) :
      MicroOutcome s .rConvert (respondRead .outOfRange s)
  /-- The code is converted (R92). -/
  | converts (r : Reading) (inRange : convert (rawCode s.raw) = some r) :
      MicroOutcome s .rConvert (respondRead (readingStatus s.stale) (writeReading r s))

/-- An advancing step, recognised from the state it ends in. -/
theorem MicroOutcome.of_progress {s t : State} {m m' : MicroState} (same : t = s.withProgress t)
    (micro : t.micro = some m') (busy : m' ≠ .idle) (kind : m'.configuring = m.configuring)
    (csReq : s.csReq = m.inCriticalSection → t.csReq = m'.inCriticalSection)
    (phaseByte : PhaseByte m s → PhaseByte m' t)
    (reading : m.configuring = false → t.rb = s.rb ∧ t.cfgbyte = s.cfgbyte) : MicroOutcome s m t := by
  have advances := MicroOutcome.advances (s := s) t micro busy kind csReq (same ▸ phaseByte) reading
  exact same.symm ▸ advances

theorem microStep_outcome {m : MicroState} (hi : m ≠ .idle) (s : State) : MicroOutcome s m (microStep m s) := by
  cases m with
  | idle => exact absurd rfl hi
  | cP1CsEnter =>
    exact .of_progress (m' := .cP1Write) (by cases s; rfl) rfl (by decide) rfl (fun _ => rfl) (fun _ => rfl) nofun
  | cP1Write => exact .of_progress (m' := .cP1Readback) (by cases s; rfl) rfl (by decide) rfl id id nofun
  | cP1Readback => exact .of_progress (m' := .cP1CsLeave) (by cases s; rfl) rfl (by decide) rfl id id nofun
  | cP1CsLeave =>
    simp only [microStep, cP1CsLeave, mismatch_eq_true_iff]
    split
    next differ => exact .failsBias differ
    next =>
      exact .of_progress (m' := .cDelay) (by cases s; rfl) rfl (by decide) rfl (fun _ => rfl) (fun _ => trivial) nofun
  | cDelay => exact .of_progress (m' := .cP2CsEnter) (by cases s; rfl) rfl (by decide) rfl id (fun _ => rfl) nofun
  | cP2CsEnter =>
    exact .of_progress (m' := .cP2Write) (by cases s; rfl) rfl (by decide) rfl (fun _ => rfl) id nofun
  | cP2Write => exact .of_progress (m' := .cP2Readback) (by cases s; rfl) rfl (by decide) rfl id id nofun
  | cP2Readback => exact .of_progress (m' := .cP2CsLeave) (by cases s; rfl) rfl (by decide) rfl id id nofun
  | cP2CsLeave =>
    simp only [microStep, cP2CsLeave, mismatch_eq_true_iff]
    split
    next differ => exact .failsArm differ
    next agree => exact .verifies (not_not.mp agree)
  | rReady =>
    exact .of_progress (m' := .rCode) (by cases s; rfl) rfl (by decide) rfl id (fun _ => trivial) fun _ => ⟨rfl, rfl⟩
  | rCode =>
    simp only [microStep, rCode]
    split
    · exact .of_progress (m' := .rFault) (by cases s; rfl) (by simp) (by decide) rfl
        (by simp [MicroState.inCriticalSection]) (fun _ => trivial) (by simp)
    · exact .of_progress (m' := .rConvert) (by cases s; rfl) (by simp) (by decide) rfl
        (by simp [MicroState.inCriticalSection]) (fun _ => trivial) (by simp)
  | rFault =>
    simp only [microStep, rFault]
    rcases takeFault_cases s.devByte (memRead1 (DeviceReg.readAddress .faultStatus) s) with ⟨stored, h⟩ |
      ⟨notStored, h⟩
    · rw [h]
      exact .retries stored
    · rw [h]
      exact .reportsFault notStored
  | rConvert =>
    simp only [microStep, rConvert]
    split
    next noReading => exact .outOfRange noReading
    next r inRange => exact .converts r inRange

/-- The outcomes of accepting a command in `IDLE`, `u` being the state with its word latched. -/
inductive AcceptOutcome (u : State) : Instr → State → Prop where
  /-- A START with an invalid operand (R70). -/
  | rejects {mode wires hz : Nat} {e : Status} (invalid : inputError mode wires hz = some e) :
      AcceptOutcome u (.start mode wires hz) (respondConfiguring e (clearResponse u))
  /-- A START with valid operands (R72). -/
  | starts {mode wires hz : Nat} (valid : inputError mode wires hz = none) :
      AcceptOutcome u (.start mode wires hz)
        (enterConfiguring (BitVec.ofNat 2 mode) (BitVec.ofNat 8 wires) (BitVec.ofNat 8 hz) false (clearResponse u))
  /-- A READ (R86). -/
  | reads : AcceptOutcome u .read ((clearResponse u).goto .rReady)

theorem exec_outcome {i : Instr} {u t : State} (hm : u.micro = some .idle) (h : exec i u = .next t) :
    AcceptOutcome u i t := by
  rcases exec_cases i u with ⟨hbusy, -⟩ | ⟨-, mode, wires, hz, e, rfl, invalid, he⟩ |
    ⟨-, mode, wires, hz, rfl, valid, he⟩ | ⟨-, rfl, he⟩
  · exact absurd hm hbusy
  · cases he.symm.trans h
    exact .rejects invalid
  · cases he.symm.trans h
    exact .starts valid
  · cases he.symm.trans h
    exact .reads

/-- The outcomes of a step of the machine, whoever's move it is. -/
inductive StepOutcome (s : State) : State → Prop where
  /-- The step of a micro-state other than `IDLE`. -/
  | moves {m : MicroState} {t : State} (micro : s.micro = some m) (busy : m ≠ .idle)
      (outcome : MicroOutcome (takeMove s) m t) : StepOutcome s t
  /-- The acceptance of a command. -/
  | accepts {i : Instr} {t : State} (idle : s.micro = some .idle) (presented : s.cmdValid = true)
      (word : decode s.cmdWord = .command i) (outcome : AcceptOutcome (takeCommand (takeMove s)) i t) :
      StepOutcome s t
  /-- An idle sequencer without a command, or another agent's move: no register changes. -/
  | rests (o : State) : StepOutcome s (s.withSurroundings o)
  | resets (arrives : nextMove s = .reset) : StepOutcome s (applyReset (takeMove s))

theorem step_outcome {s t : State} (h : step s = .next t) : StepOutcome s t := by
  rcases step_next_cases h with ⟨-, hseq⟩ | ⟨w, -, rfl⟩ | ⟨bs, -, rfl⟩ | ⟨b, -, rfl⟩ | ⟨-, rfl⟩ |
    ⟨bs, n, -, -, rfl⟩ | ⟨hr, rfl⟩
  · obtain ⟨-, ⟨m, hm, hi, rfl⟩ | ⟨hm, hv, i, hd, he⟩ | ⟨-, -, rfl⟩⟩ := seqStep_next_cases hseq
    · exact .moves hm hi (microStep_outcome hi _)
    · exact .accepts hm hv hd (exec_outcome hm he)
    · exact .rests (takeMove s)
  · exact .rests (hostPresents w (takeMove s))
  · exact .rests (devChoosesBytes bs (takeMove s))
  · exact .rests (devChoosesReady b (takeMove s))
  · exact .rests (takeMove s)
  · exact .rests (takeMove s)
  · exact .resets hr

end Sys2Proof.Machine
end

section
/-! PROOFS. The invariants I1 to I8 of R25 (`MachineInv`) and I9 (`SequenceInv`): every step keeps them. -/

namespace Sys2Proof.Safety

open Sys2Proof.Machine

/-! ### `MachineInv` by the micro-state -/

/-- What `MachineInv` says of the stored Configuration (R25 I1 and I2). -/
def StoredLegal (s : State) : Prop :=
  (s.armed = true → s.cfgValid = true) ∧ (s.cfgValid = true → LegalOperands s.cfgMode s.cfgWires s.cfgHz)

theorem MachineInv.stored {s : State} (hs : MachineInv s) : StoredLegal s := ⟨hs.armed_valid, hs.cfg_legal⟩

theorem MachineInv.csReq_eq {s : State} {m : MicroState} (hs : MachineInv s) (hm : s.micro = some m) :
    s.csReq = m.inCriticalSection := by
  rw [Bool.eq_iff_iff, hs.cs_req]
  simp [hm]

theorem MachineInv.csReq_eq_false {s : State} {m : MicroState} (hs : MachineInv s) (hm : s.micro = some m)
    (hc : m.inCriticalSection = false) : s.csReq = false :=
  (hs.csReq_eq hm).trans hc

theorem MachineInv.retry_configuring {s : State} {m : MicroState} (hs : MachineInv s) (hm : s.micro = some m)
    (hctx : s.ctx = true) : m.configuring = true := by
  obtain ⟨⟨m', hm', hc⟩, -⟩ := hs.retry_fault hctx
  cases hm.symm.trans hm'
  exact hc

theorem MachineInv.ctx_eq_false {s : State} {m : MicroState} (hs : MachineInv s) (hm : s.micro = some m)
    (hc : m.configuring = false) : s.ctx = false :=
  Bool.eq_false_iff.mpr fun hctx => by simp [hs.retry_configuring hm hctx] at hc

theorem MachineInv.silent {s : State} {m : MicroState} (hs : MachineInv s) (hm : s.micro = some m)
    (hi : m ≠ .idle) : s.rspValid = false ∧ s.resultValid = false :=
  hs.busy_silent fun h => hi (Option.some.inj (hm.symm.trans h))

theorem MachineInv.of_idle {t : State} (hm : t.micro = some .idle) (status : Status.ofCode t.rspStatus ≠ none)
    (stored : StoredLegal t) (csReq : t.csReq = false) (ctx : t.ctx = false)
    (result : t.resultValid = true →
      t.rspValid = true ∧ (t.rspStatus = Status.ok.code ∨ t.rspStatus = Status.oldReading.code)) :
    MachineInv t where
  st_legal := by simp [hm]
  status_legal := status
  armed_valid := stored.1
  cfg_legal := stored.2
  cs_req := by simp [hm, csReq, MicroState.inCriticalSection]
  idle_clear _ := ⟨csReq, ctx⟩
  busy_silent h := absurd hm h
  result_status := result
  retry_fault h := by simp [ctx] at h
  operands_legal m h hc := by
    cases hm.symm.trans h
    cases hc

theorem MachineInv.of_busy {t : State} {m : MicroState} (hm : t.micro = some m) (hi : m ≠ .idle)
    (status : Status.ofCode t.rspStatus ≠ none) (stored : StoredLegal t)
    (csReq : t.csReq = m.inCriticalSection) (silent : t.rspValid = false ∧ t.resultValid = false)
    (retry : t.ctx = true → m.configuring = true ∧ FaultCode t.pend)
    (operands : m.configuring = true → LegalOperands t.wMode t.wWires t.wHz) : MachineInv t where
  st_legal := by simp [hm]
  status_legal := status
  armed_valid := stored.1
  cfg_legal := stored.2
  cs_req := by simp [hm, csReq]
  idle_clear h := absurd (Option.some.inj (hm.symm.trans h)) hi
  busy_silent _ := silent
  result_status h := by simp [silent.2] at h
  retry_fault h := ⟨⟨m, hm, (retry h).1⟩, (retry h).2⟩
  operands_legal m' h hc := operands (by cases hm.symm.trans h; exact hc)

/-- `MachineInv` reads only the sequencer's registers. -/
theorem MachineInv.withSurroundings {s : State} (hs : MachineInv s) (o : State) :
    MachineInv (s.withSurroundings o) :=
  ⟨hs.st_legal, hs.status_legal, hs.armed_valid, hs.cfg_legal, hs.cs_req, hs.idle_clear, hs.busy_silent,
    hs.result_status, hs.retry_fault, hs.operands_legal⟩

/-! ### Statuses and operands -/

theorem FaultCode.of_classify (fs : Byte) : FaultCode (classify fs).code := by
  have h := classify_isDeviceFault fs
  cases hx : classify fs with
  | brokenRtdWire => exact .inl rfl
  | circuitMalfunction => exact .inr (.inl rfl)
  | unknownError => exact .inr (.inr rfl)
  | _ => simp [hx, Status.isDeviceFault] at h

theorem FaultCode.status_legal {c : BitVec 4} (h : FaultCode c) : Status.ofCode c ≠ none := by
  rcases h with rfl | rfl | rfl <;> simp

theorem LegalOperands.of_inputError {mode wires hz : Nat} (h : inputError mode wires hz = none) :
    LegalOperands (BitVec.ofNat 2 mode) (BitVec.ofNat 8 wires) (BitVec.ofNat 8 hz) := by
  obtain ⟨hmode, hwires, hhz⟩ := (inputError_eq_none_iff mode wires hz).mp h
  refine ⟨?_, ?_, ?_⟩
  · rcases hmode with rfl | rfl <;> decide
  · rcases hwires with rfl | rfl | rfl <;> decide
  · rcases hhz with rfl | rfl <;> decide

/-! ### Completion and entry establish `MachineInv` -/

theorem MachineInv.of_respondRead {u : State} (x : Status) (stored : StoredLegal u) (csReq : u.csReq = false)
    (ctx : u.ctx = false) : MachineInv (respondRead x u) :=
  .of_idle rfl (by simp) stored csReq ctx
    fun h => ⟨rfl, Status.code_of_hasResult h⟩

theorem MachineInv.of_respondConfiguring {u : State} (x : Status) (stored : StoredLegal u)
    (csReq : u.csReq = false) (retry : u.ctx = true → FaultCode u.pend) :
    MachineInv (respondConfiguring x u) := by
  have status : Status.ofCode (respondConfiguring x u).rspStatus ≠ none := by
    rw [respondConfiguring_status]
    split
    next h => exact (retry h).status_legal
    next => simp
  exact .of_idle rfl status stored csReq rfl nofun

theorem MachineInv.of_enterConfiguring {u : State} {mode : BitVec 2} {wires hz : Byte} {retry : Bool}
    (legal : LegalOperands mode wires hz) (status : Status.ofCode u.rspStatus ≠ none) (stored : StoredLegal u)
    (csReq : u.csReq = false) (silent : u.rspValid = false ∧ u.resultValid = false)
    (fault : retry = true → FaultCode u.pend) : MachineInv (enterConfiguring mode wires hz retry u) :=
  .of_busy (m := .cP1CsEnter) rfl (by decide) status ⟨nofun, stored.2⟩ csReq silent
    (fun h => ⟨rfl, fault h⟩) fun _ => legal

/-! ### Every step keeps `MachineInv` -/

theorem MachineInv.of_microOutcome {s t : State} {m : MicroState} (hs : MachineInv s) (hm : s.micro = some m)
    (hi : m ≠ .idle) (h : MicroOutcome s m t) : MachineInv t := by
  have stored := hs.stored
  cases h with
  | advances o micro busy kind csReq phaseByte reading =>
    refine .of_busy micro busy hs.status_legal stored (csReq (hs.csReq_eq hm))
      (hs.silent hm hi) (fun hctx => ?_) fun hc => hs.operands_legal m hm (kind ▸ hc)
    exact ⟨kind.trans (hs.retry_configuring hm hctx), (hs.retry_fault hctx).2⟩
  | failsBias | failsArm =>
    exact .of_respondConfiguring _ stored rfl fun hctx => (hs.retry_fault hctx).2
  | verifies =>
    exact .of_respondConfiguring _ ⟨fun _ => rfl, fun _ => hs.operands_legal _ hm rfl⟩ rfl
      fun hctx => (hs.retry_fault hctx).2
  | retries valid =>
    exact .of_enterConfiguring (stored.2 valid) (by simpa using hs.status_legal)
      (by simpa [StoredLegal] using stored) (by simpa using hs.csReq_eq_false hm rfl) (by simpa using hs.silent hm hi)
      fun _ => .of_classify s.devByte
  | reportsFault =>
    exact .of_respondRead _ (by simpa [StoredLegal] using stored) (by simpa using hs.csReq_eq_false hm rfl)
      (by simpa using hs.ctx_eq_false hm rfl)
  | outOfRange | converts =>
    exact .of_respondRead _ stored (hs.csReq_eq_false hm rfl) (hs.ctx_eq_false hm rfl)

theorem MachineInv.of_acceptOutcome {u t : State} {i : Instr} (hu : MachineInv u) (hm : u.micro = some .idle)
    (h : AcceptOutcome u i t) : MachineInv t := by
  have stored := hu.stored
  obtain ⟨csReq, ctx⟩ := hu.idle_clear hm
  cases h with
  | rejects =>
    exact .of_respondConfiguring _ stored csReq fun h => (hu.retry_fault h).2
  | starts valid =>
    exact .of_enterConfiguring (.of_inputError valid) hu.status_legal stored csReq
      ⟨rfl, rfl⟩ nofun
  | reads =>
    exact .of_busy (m := .rReady) rfl (by decide) hu.status_legal stored csReq
      ⟨rfl, rfl⟩ (fun h => by simp [ctx] at h) nofun

theorem machineInv_applyReset (s : State) : MachineInv (applyReset s) :=
  .of_idle rfl (by simp [State.reset, Status.ofCode]) ⟨nofun, nofun⟩ rfl rfl nofun

/-- Settles O51: by the outcomes of a step, each of which `MachineInv.of_busy` or `MachineInv.of_idle` covers. -/
theorem stepKeepsTheInvariants : Obligations.StepKeepsTheInvariants := by
  intro s t hs h
  cases step_outcome h with
  | moves micro busy outcome => exact (hs.withSurroundings (takeMove s)).of_microOutcome micro busy outcome
  | accepts idle _ _ outcome => exact (hs.withSurroundings (takeCommand (takeMove s))).of_acceptOutcome idle outcome
  | rests o => exact hs.withSurroundings o
  | resets => exact machineInv_applyReset _

/-! ### `SequenceInv` by the micro-state -/

/-- The three cases of I9 outside a configuring sequence. -/
def LastSequence (s : State) : Prop := LastVerified s ∨ LastFailed s ∨ NoneRun s

theorem SequenceInv.of_outside {t : State} {m : MicroState} (hm : t.micro = some m) (hc : m.configuring = false)
    (last : LastSequence t) : SequenceInv t := by
  refine ⟨fun _ _ _ => last, fun m' h hc' => ?_, fun h => ?_, fun h => ?_⟩
  · cases hm.symm.trans h
    simp [hc] at hc'
  · rcases h with h | h | h <;> cases hm.symm.trans h <;> cases hc
  · rcases h with h | h | h | h <;> cases hm.symm.trans h <;> cases hc

theorem SequenceInv.of_inside {t : State} {m : MicroState} (hm : t.micro = some m) (hc : m.configuring = true)
    (disarmed : t.armed = false) (byte : PhaseByte m t) : SequenceInv t := by
  refine ⟨fun m' h hc' => ?_, fun _ _ _ => disarmed, fun h => ?_, fun h => ?_⟩
  · cases hm.symm.trans h
    simp [hc] at hc'
  · rcases h with h | h | h <;> cases hm.symm.trans h <;> exact byte
  · rcases h with h | h | h | h <;> cases hm.symm.trans h <;> exact byte

theorem SequenceInv.phaseByte {s : State} {m : MicroState} (hs : SequenceInv s) (hm : s.micro = some m) :
    PhaseByte m s := by
  cases m with
  | cP1Write | cP1Readback | cP1CsLeave => exact hs.biasByte (by simp [hm])
  | cP2CsEnter | cP2Write | cP2Readback | cP2CsLeave => exact hs.armByte (by simp [hm])
  | _ => trivial

theorem SequenceInv.withSurroundings {s : State} (hs : SequenceInv s) (o : State) :
    SequenceInv (s.withSurroundings o) :=
  ⟨hs.outside, hs.disarmed, hs.biasByte, hs.armByte⟩

/-! ### Every step keeps `SequenceInv` -/

theorem LastSequence.withProgress {s o : State} (last : LastSequence s) (hrb : o.rb = s.rb)
    (hbyte : o.cfgbyte = s.cfgbyte) : LastSequence (s.withProgress o) := by
  simpa only [LastSequence, LastVerified, LastFailed, NoneRun, State.withProgress, hrb, hbyte] using last

theorem SequenceInv.of_microOutcome {s t : State} {m : MicroState} (hs : SequenceInv s) (hm : s.micro = some m)
    (h : MicroOutcome s m t) : SequenceInv t := by
  cases h with
  | advances o micro busy kind csReq phaseByte reading =>
    cases hc : m.configuring with
    | false =>
      obtain ⟨hrb, hbyte⟩ := reading hc
      exact .of_outside micro (kind.trans hc) (LastSequence.withProgress (hs.outside m hm hc) hrb hbyte)
    | true => exact .of_inside micro (kind.trans hc) (hs.disarmed m hm hc) (phaseByte (hs.phaseByte hm))
  | failsBias differ =>
    exact .of_outside (m := .idle) rfl rfl (.inr (.inl ⟨hs.disarmed _ hm rfl, differ, .inl (hs.phaseByte hm)⟩))
  | failsArm differ =>
    exact .of_outside (m := .idle) rfl rfl (.inr (.inl ⟨hs.disarmed _ hm rfl, differ, .inr (hs.phaseByte hm)⟩))
  | verifies agree =>
    exact .of_outside (m := .idle) rfl rfl (.inl ⟨rfl, rfl, agree, hs.phaseByte hm, rfl, rfl, rfl⟩)
  | retries => exact .of_inside (m := .cP1CsEnter) rfl rfl rfl trivial
  | reportsFault =>
    exact .of_outside (m := .idle) rfl rfl
      (by simpa [LastSequence, LastVerified, LastFailed, NoneRun] using hs.outside _ hm rfl)
  | outOfRange | converts => exact .of_outside (m := .idle) rfl rfl (hs.outside _ hm rfl)

theorem SequenceInv.of_acceptOutcome {u t : State} {i : Instr} (hu : SequenceInv u) (hm : u.micro = some .idle)
    (h : AcceptOutcome u i t) : SequenceInv t := by
  cases h with
  | rejects => exact .of_outside (m := .idle) rfl rfl (hu.outside _ hm rfl)
  | starts => exact .of_inside (m := .cP1CsEnter) rfl rfl rfl trivial
  | reads => exact .of_outside (m := .rReady) rfl rfl (hu.outside _ hm rfl)

theorem sequenceInv_applyReset (s : State) : SequenceInv (applyReset s) :=
  .of_outside (m := .idle) rfl rfl (.inr (.inr ⟨rfl, rfl, rfl, rfl⟩))

/-- Settles O52: by the outcomes of a step; the byte of each phase is carried to the verification that ends it. -/
theorem stepKeepsTheSequenceInvariant : Obligations.StepKeepsTheSequenceInvariant := by
  intro s t _ hs h
  cases step_outcome h with
  | moves micro _ outcome => exact (hs.withSurroundings (takeMove s)).of_microOutcome micro outcome
  | accepts idle _ _ outcome => exact (hs.withSurroundings (takeCommand (takeMove s))).of_acceptOutcome idle outcome
  | rests o => exact hs.withSurroundings o
  | resets => exact sequenceInv_applyReset _

/-- Settles O50: reset is `IDLE` with no command, no sequence run and an empty history. -/
theorem invariantsHoldAtReset : Obligations.InvariantsHoldAtReset :=
  ⟨machineInv_applyReset State.reset, sequenceInv_applyReset State.reset, .of_idle rfl rfl, nofun⟩

end Sys2Proof.Safety
end

section
/-! PROOFS. Rules of the whole machine: what a busy sequencer leaves alone, when a step faults, the record it
leaves, the combinational outputs, and which steps write the stored Configuration, `armed` and the temperatures. -/

namespace Sys2Proof.Safety

open Sys2Proof.Machine

/-! ### Busy steps -/

/-- Settles O9: the other three answers of `exec_cases` are those of an idle sequencer. -/
theorem busyCommandIsTurnedAway : Obligations.BusyCommandIsTurnedAway := by
  intro s i hbusy
  rcases exec_cases i s with ⟨-, h⟩ | ⟨hm, -⟩ | ⟨hm, -⟩ | ⟨hm, -⟩
  · exact h
  all_goals exact absurd hm hbusy

/-- A micro-state's step takes nothing off the host's port, and lets the latched word go only in `IDLE`. -/
theorem microOutcome_keeps_port {s t : State} {m : MicroState} (h : MicroOutcome s m t) :
    t.cmdValid = s.cmdValid ∧ t.cmdWord = s.cmdWord ∧ (t.micro ≠ some .idle → t.cmd = s.cmd) := by
  cases h with
  | advances | retries => exact ⟨rfl, rfl, fun _ => rfl⟩
  | failsBias | failsArm | verifies | reportsFault | outOfRange | converts =>
    exact ⟨rfl, rfl, fun busy => absurd rfl busy⟩

/-- Settles O7: a busy step is `microStep`, and each of its outcomes keeps the port. -/
theorem busySequencerLeavesThePort : Obligations.BusySequencerLeavesThePort := by
  intro s m hat hi
  have notReady : s.cmdReady = false := Bool.eq_false_iff.mpr fun h =>
    hi (Option.some.inj (hat.micro.symm.trans ((State.cmdReady_iff s).mp h)))
  exact ⟨notReady, _, step_at hat hi, microOutcome_keeps_port (s := takeMove s) (microStep_outcome hi _)⟩

/-! ### Faults -/

theorem exec_ne_fault (i : Instr) (s : State) (r : Fault) : exec i s ≠ .fault r := by
  rcases exec_cases i s with ⟨-, h⟩ | ⟨-, _, _, _, _, -, -, h⟩ | ⟨-, _, _, _, -, -, h⟩ | ⟨-, -, h⟩ <;>
    simp [h]

theorem idleStep_ne_fault (s : State) (r : Fault) : idleStep s ≠ .fault r := by
  unfold idleStep
  split
  · split
    · exact exec_ne_fault _ _ r
    · nofun
  · nofun

theorem seqStep_eq_fault_iff (s : State) (r : Fault) :
    seqStep s = .fault r ↔
      (Status.ofCode s.rspStatus = none ∧ r = .reservedStatusCode) ∨
      (Status.ofCode s.rspStatus ≠ none ∧ s.micro = none ∧ r = .unreachableMicroState) := by
  cases hx : Status.ofCode s.rspStatus with
  | none => simp [seqStep, hx, eq_comm]
  | some x =>
    have legal : Status.ofCode s.rspStatus ≠ none := by simp [hx]
    cases hm : s.micro with
    | none => simp [seqStep, hx, hm, eq_comm]
    | some m =>
      by_cases hi : m = .idle
      · subst hi
        simp [seqStep_of_idle legal hm, idleStep_ne_fault]
      · simp [seqStep_of_micro legal hm hi]

/-- Settles O10: `seqStep_eq_fault_iff` with the two codes read as numbers. -/
theorem faultsOfTheStep : Obligations.FaultsOfTheStep := by
  intro s own
  have status := Status.ofCode_eq_none_iff s.rspStatus
  have micro : s.micro = none ↔ 14 ≤ s.st.toNat := MicroState.ofCode_eq_none_iff s.st
  rw [step_of_own_move own, seqStep_eq_fault_iff, seqStep_eq_fault_iff, takeMove_rspStatus, takeMove_micro, Ne,
    status, micro]
  refine ⟨by simp, ?_⟩
  simp only [reduceCtorEq, and_false, false_or, and_true]
  omega

/-! ### The boundary record of a step -/

/-- The record the step of `m` in `s` leaves (R14, R31). -/
def microEvents (m : MicroState) (s : State) : List Event :=
  match m with
  | .idle | .rConvert => []
  | .cP1CsEnter | .cP2CsEnter => [.csE]
  | .cP1Write | .cP2Write => [.busWr 0x00 s.cfgbyte]
  | .cP1Readback | .cP2Readback => [.busRd 0x00 1 [s.devByte]]
  | .cP1CsLeave | .cP2CsLeave => [.csL]
  | .cDelay => [.dly Config.settleMs]
  | .rReady => [.rdy s.devReady]
  | .rCode => [.busRd 0x01 2 [s.devByte, s.popByte.devByte]]
  | .rFault => [.busRd 0x07 1 [s.devByte]]

theorem takeFault_history (fs : Byte) (s : State) : (takeFault fs s).history = s.history := by
  rcases takeFault_cases fs s with ⟨-, h⟩ | ⟨-, h⟩ <;> simp [h]

theorem microStep_history (m : MicroState) (s : State) :
    (microStep m s).history = s.history ++ microEvents m s := by
  cases m with
  | idle => simp [microStep, microEvents]
  | cP1CsEnter => simp [microStep, cP1CsEnter, microEvents]
  | cP1Write => simp [microStep, cP1Write, microEvents, DeviceReg.readAddress]
  | cP1Readback => simp [microStep, cP1Readback, microEvents, DeviceReg.readAddress]
  | cP1CsLeave =>
    simp only [microStep, cP1CsLeave]
    split <;> simp [microEvents]
  | cDelay => simp [microStep, cDelay, microEvents]
  | cP2CsEnter => simp [microStep, cP2CsEnter, microEvents]
  | cP2Write => simp [microStep, cP2Write, microEvents, DeviceReg.readAddress]
  | cP2Readback => simp [microStep, cP2Readback, microEvents, DeviceReg.readAddress]
  | cP2CsLeave =>
    simp only [microStep, cP2CsLeave]
    split <;> simp [microEvents]
  | rReady => simp [microStep, rReady, microEvents]
  | rCode => simp [microStep, rCode, microEvents, DeviceReg.readAddress]
  | rFault => simp [microStep, rFault, takeFault_history, microEvents, DeviceReg.readAddress]
  | rConvert =>
    simp only [microStep, rConvert]
    split <;> simp [microEvents]

theorem acceptOutcome_history {i : Instr} {u t : State} (h : AcceptOutcome u i t) : t.history = u.history := by
  cases h <;> rfl

/-- In `IDLE` the sequencer's step records nothing. -/
theorem seqStep_idle_history {s t : State} (hm : s.micro = some .idle) (h : seqStep s = .next t) :
    t.history = s.history := by
  obtain ⟨-, ⟨m, hm', hi, -⟩ | ⟨-, -, i, -, he⟩ | ⟨-, -, rfl⟩⟩ := seqStep_next_cases h
  · exact absurd (Option.some.inj (hm'.symm.trans hm)) hi
  · exact acceptOutcome_history (u := takeCommand s) (exec_outcome hm he)
  · rfl

theorem step_at_history {s t : State} {m : MicroState} (hat : At s m) (h : step s = .next t) :
    t.history = s.history ++ microEvents m s := by
  by_cases hi : m = .idle
  · subst hi
    rw [step_of_own_move hat.own_move] at h
    simpa [microEvents] using seqStep_idle_history (s := takeMove s) hat.micro h
  · cases (step_at hat hi).symm.trans h
    exact microStep_history m (takeMove s)

/-- Settles O11: `microEvents` is the table of R14. -/
theorem eventOfEachMicroState : Obligations.EventOfEachMicroState := by
  intro s t m hat h
  rw [step_at_history hat h]
  cases m <;> rfl

/-! ### Combinational outputs -/

/-- Settles O47: the fourteen legal values of `st` one by one, then the others. -/
theorem combinationalOutputs : Obligations.CombinationalOutputs := by
  intro s
  refine ⟨by simp [State.cmdReady, MicroState.code], ?_⟩
  cases hm : s.micro with
  | some m =>
    have hst := MicroState.code_of_ofCode hm
    cases m with
    | idle => cases ha : s.armed <;> simp [State.ports, State.fsmState, hm, hst, ha, MicroState.code, FsmState.code]
    | _ => simp [State.ports, State.fsmState, hm, hst, MicroState.code, FsmState.code]
  | none =>
    have illegal : 14 ≤ s.st.toNat := (MicroState.ofCode_eq_none_iff s.st).mp hm
    have ne : ∀ c : BitVec 5, c.toNat < 14 → s.st ≠ c := by
      rintro c hc rfl
      omega
    have notConfiguring : ¬ s.st.toNat ≤ 9 := by omega
    simp [State.ports, State.fsmState, hm, ne, notConfiguring]

/-! ### The moves of the other agents -/

/-- Settles O59: the effect of each move on the state without it. -/
theorem movesOfTheOtherAgents : Obligations.MovesOfTheOtherAgents := by
  intro s rest
  refine ⟨fun w h => ?_, fun bytes h => ?_, fun b h => ?_, fun h => ?_, fun sent n h => ?_⟩
  · simp [step, nextMove, takeMove, act, hostPresents, h]
  · simp [step, nextMove, takeMove, act, devChoosesBytes, h]
  · simp [step, nextMove, takeMove, act, devChoosesReady, h]
  · simp [step, nextMove, takeMove, act, h]
  · simp [step, nextMove, takeMove, act, h]

/-! ### What writes the stored Configuration, `armed` and the temperatures -/

/-- R17, R82: the stored Configuration stays, or a mode-arm phase verified and its operands are stored. -/
theorem step_configuration {s t : State} (h : step s = .next t) (notReset : nextMove s ≠ .reset) :
    (t.cfgValid = s.cfgValid ∧ t.cfgMode = s.cfgMode ∧ t.cfgWires = s.cfgWires ∧ t.cfgHz = s.cfgHz) ∨
    (s.micro = some .cP2CsLeave ∧ s.rb = s.cfgbyte ∧ t.cfgValid = true ∧ t.cfgMode = s.wMode ∧
      t.cfgWires = s.wWires ∧ t.cfgHz = s.wHz) := by
  cases step_outcome h with
  | moves micro _ outcome =>
    cases outcome with
    | verifies agree => exact .inr ⟨micro, agree, rfl, rfl, rfl, rfl⟩
    | _ => exact .inl (by simp [State.withProgress])
  | accepts _ _ _ outcome => exact .inl (by cases outcome <;> simp)
  | rests => exact .inl ⟨rfl, rfl, rfl, rfl⟩
  | resets arrives => exact absurd arrives notReset

/-- Settles O55: by `step_configuration`, whose other case changes no register. -/
theorem onlyAVerifiedSequenceStoresAConfiguration : Obligations.OnlyAVerifiedSequenceStoresAConfiguration := by
  intro s t h notReset changed
  rcases step_configuration h notReset with ⟨hv, hm, hw, hz⟩ | stored
  · simp [hv, hm, hw, hz] at changed
  · exact stored

/-- R16: `armed` stays, or rises with a verified mode-arm phase, or falls on entering a configuring sequence. -/
theorem step_armed {s t : State} (h : step s = .next t) (notReset : nextMove s ≠ .reset) :
    t.armed = s.armed ∨
    (t.armed = true ∧ s.micro = some .cP2CsLeave ∧ s.rb = s.cfgbyte) ∨
    (t.armed = false ∧ t.micro = some .cP1CsEnter ∧ (s.micro = some .idle ∨ s.micro = some .rFault)) := by
  cases step_outcome h with
  | moves micro _ outcome =>
    cases outcome with
    | verifies agree => exact .inr (.inl ⟨rfl, micro, agree⟩)
    | retries => exact .inr (.inr ⟨rfl, rfl, .inr micro⟩)
    | _ => exact .inl (by simp [State.withProgress])
  | accepts idle _ _ outcome =>
    cases outcome with
    | starts => exact .inr (.inr ⟨rfl, rfl, .inl idle⟩)
    | rejects | reads => exact .inl (by simp)
  | rests => exact .inl rfl
  | resets arrives => exact absurd arrives notReset

/-- Settles O56: the three cases of `step_armed` against the two directions. -/
theorem armedRisesAndFalls : Obligations.ArmedRisesAndFalls := by
  intro s t h notReset
  rcases step_armed h notReset with same | ⟨rises, verified⟩ | ⟨falls, entered⟩
  · exact ⟨fun down rises => by simp [same, down] at rises, fun up falls => by simp [same, up] at falls⟩
  · exact ⟨fun _ _ => verified, fun _ falls => by simp [rises] at falls⟩
  · exact ⟨fun _ rises => by simp [falls] at rises, fun _ _ => entered⟩

theorem readingStatus_code (stale : Bool) :
    (readingStatus stale).code = Status.ok.code ∨ (readingStatus stale).code = Status.oldReading.code :=
  Status.code_of_hasResult (by cases stale <;> rfl)

/-- R92, R93: the temperatures stay, or a code in range was converted and its status carries a result. -/
theorem step_temperatures {s t : State} (h : step s = .next t) (notReset : nextMove s ≠ .reset) :
    (t.tempC = s.tempC ∧ t.tempK = s.tempK ∧ t.tempF = s.tempF) ∨
    (s.micro = some .rConvert ∧ convert (rawCode s.raw) ≠ none ∧ t.resultValid = true ∧
      (t.rspStatus = Status.ok.code ∨ t.rspStatus = Status.oldReading.code)) := by
  cases step_outcome h with
  | moves micro _ outcome =>
    cases outcome with
    | converts r inRange =>
      refine .inr ⟨micro, Option.ne_none_iff_exists'.mpr ⟨r, inRange⟩, ?_, readingStatus_code s.stale⟩
      cases hs : s.stale <;> simp [hs, readingStatus, Status.hasResult]
    | _ => exact .inl (by simp [State.withProgress])
  | accepts _ _ _ outcome => exact .inl (by cases outcome <;> simp)
  | rests => exact .inl ⟨rfl, rfl, rfl⟩
  | resets arrives => exact absurd arrives notReset

/-- Settles O57: by `step_temperatures`, whose other case changes no temperature. -/
theorem onlyConversionWritesTemperatures : Obligations.OnlyConversionWritesTemperatures := by
  intro s t h notReset changed
  rcases step_temperatures h notReset with ⟨hc, hk, hf⟩ | converted
  · simp [hc, hk, hf] at changed
  · exact converted

end Sys2Proof.Safety
end

section
/-! PROOFS. The boundary records and the critical section: what a record calls on the transport, which records a
step can leave (R29), and how each kind of record stands to `cs_req` (R42). -/

namespace Sys2Proof.Safety

open Sys2Proof.Machine

/-! ### Transport calls and read-backs -/

/-- R30: a write goes to the register's address with the top bit set. -/
theorem writeAddressByte_configuration : writeAddressByte 0x00 = 0x80 := by decide

/-- Settles O12: `Event.transport` case by case, with the write address of the configuration register. -/
theorem transportCallsOfEvents : Obligations.TransportCallsOfEvents := by
  refine ⟨fun v => ?_, fun _ _ _ => rfl, fun _ => rfl, fun _ => rfl, rfl, rfl⟩
  rw [Event.transport, writeAddressByte_configuration]

/-- R75, R81: either read-back stores the device's next byte, which is then used up and counted. -/
theorem microStep_readback {m : MicroState} (hm : m = .cP1Readback ∨ m = .cP2Readback) (u : State) :
    (microStep m u).rb = u.devByte ∧ (microStep m u).cfgbyte = u.cfgbyte ∧
      (microStep m u).devBytes = u.devBytes.tail ∧ (microStep m u).draws = u.draws + 1 := by
  rcases hm with rfl | rfl
  · simp [microStep, cP1Readback]
  · simp [microStep, cP2Readback]

theorem step_readback_chosen {s : State} {m : MicroState} (hm : m = .cP1Readback ∨ m = .cP2Readback)
    (hat : At s m) (v : Byte) :
    ∃ t, step { s with devBytes := v :: s.devBytes } = .next t ∧ t.rb = v ∧ t.cfgbyte = s.cfgbyte ∧
      t.devBytes = s.devBytes ∧ t.draws = s.draws + 1 := by
  have answered : At { s with devBytes := v :: s.devBytes } m := at_of_fields hat hat.micro rfl rfl
  have busy : m ≠ .idle := by
    rintro rfl
    simp at hm
  exact ⟨_, step_at answered busy, microStep_readback hm _⟩

/-- Settles O13: the chosen byte is the device's next answer in both read-backs. -/
theorem anyByteCanBeReadBack : Obligations.AnyByteCanBeReadBack := by
  rintro s v (hat | hat)
  · exact step_readback_chosen (.inl rfl) hat v
  · exact step_readback_chosen (.inr rfl) hat v

/-! ### Which records a step leaves -/

/-- A step leaves the records of the micro-state the sequencer stands at, or none when another agent moves. -/
theorem step_history {s t : State} (h : step s = .next t) :
    (∃ m, At s m ∧ t.history = s.history ++ microEvents m s) ∨ t.history = s.history := by
  rcases step_next_cases h with ⟨own, hseq⟩ | ⟨_, -, rfl⟩ | ⟨_, -, rfl⟩ | ⟨_, -, rfl⟩ | ⟨-, rfl⟩ |
    ⟨_, _, -, -, rfl⟩ | ⟨-, rfl⟩
  · obtain ⟨status, standing⟩ := seqStep_next_cases hseq
    have micro : ∃ m, s.micro = some m := by
      rcases standing with ⟨m, hm, -⟩ | ⟨hm, -⟩ | ⟨hm, -⟩ <;> exact ⟨_, hm⟩
    obtain ⟨m, hm⟩ := micro
    have hat : At s m := ⟨hm, status, own⟩
    exact .inl ⟨m, hat, step_at_history hat h⟩
  all_goals exact .inr rfl

theorem microEvents_sequencerEvent (m : MicroState) (s : State) : ∀ e ∈ microEvents m s, SequencerEvent e := by
  cases m <;> simp [microEvents, SequencerEvent]

/-- Settles O54: whatever a step adds to the history is a record of a micro-state. -/
theorem stepKeepsTheHistoryInvariant : Obligations.StepKeepsTheHistoryInvariant := by
  intro s t hs h
  rcases step_history h with ⟨m, -, grown⟩ | same
  · intro e he
    rw [grown, List.mem_append] at he
    exact he.elim (hs e) (microEvents_sequencerEvent m s e)
  · rwa [HistoryInv, same]

/-! ### The critical section (R42) -/

/-- The value of `cs_req` at which the sequencer leaves a record. -/
def csReqBefore : Event → Bool
  | .busWr _ _ | .csL => true
  | .busRd a _ _ => a == 0x00
  | .rdy _ | .dly _ | .csE => false

/-- The value of `cs_req` after a record, `held` being the one before it. -/
def csReqAfter (held : Bool) : Event → Bool
  | .csE => true
  | .csL => false
  | .busWr _ _ | .busRd _ _ _ | .rdy _ | .dly _ => held

theorem inCriticalSection_of_mem_microEvents {m : MicroState} {s : State} {e : Event} (he : e ∈ microEvents m s) :
    m.inCriticalSection = csReqBefore e := by
  cases m with
  | idle | rConvert => cases he
  | _ =>
    cases List.mem_singleton.mp he
    rfl

theorem takeFault_csReq (fs : Byte) (s : State) : (takeFault fs s).csReq = s.csReq := by
  rcases takeFault_cases fs s with ⟨-, h⟩ | ⟨-, h⟩ <;> simp [h]

/-- A micro-state's step changes `cs_req` only with the records of entering and leaving. -/
theorem microStep_csReq (m : MicroState) (s : State) :
    (microStep m s).csReq = (microEvents m s).foldl csReqAfter s.csReq := by
  cases m with
  | cP1CsLeave =>
    simp only [microStep, cP1CsLeave]
    split <;> rfl
  | cP2CsLeave =>
    simp only [microStep, cP2CsLeave]
    split <;> rfl
  | rCode =>
    simp only [microStep, rCode]
    split <;> rfl
  | rFault => exact takeFault_csReq ..
  | rConvert =>
    simp only [microStep, rConvert]
    split <;> rfl
  | _ => rfl

/-- A step that leaves a record is the sequencer's, in a micro-state whose step leaves just that record. -/
theorem step_recorded {s t : State} {e : Event} (h : step s = .next t) (recorded : t.history = s.history ++ [e]) :
    ∃ m, s.micro = some m ∧ microEvents m s = [e] ∧ t = microStep m (takeMove s) := by
  rcases step_history h with ⟨m, hat, grown⟩ | same
  · have events : microEvents m s = [e] := List.append_cancel_left (grown.symm.trans recorded)
    have busy : m ≠ .idle := by
      rintro rfl
      cases events
    cases (step_at hat busy).symm.trans h
    exact ⟨m, hat.micro, events, rfl⟩
  · simp [same] at recorded

/-- Under I3, the record a step leaves fixes `cs_req` before it and after it. -/
theorem step_recorded_csReq {s t : State} {e : Event} (hs : MachineInv s) (h : step s = .next t)
    (recorded : t.history = s.history ++ [e]) : s.csReq = csReqBefore e ∧ t.csReq = csReqAfter s.csReq e := by
  obtain ⟨m, hm, events, rfl⟩ := step_recorded h recorded
  refine ⟨(hs.csReq_eq hm).trans (inCriticalSection_of_mem_microEvents (s := s) (by simp [events])), ?_⟩
  calc (microStep m (takeMove s)).csReq
      = (microEvents m s).foldl csReqAfter s.csReq := microStep_csReq m (takeMove s)
    _ = csReqAfter s.csReq e := by rw [events, List.foldl_cons, List.foldl_nil]

/-- Settles O58: `step_recorded_csReq` for each kind of record. -/
theorem criticalSectionDiscipline : Obligations.CriticalSectionDiscipline := by
  intro s t e hs h recorded
  obtain ⟨before, after⟩ := step_recorded_csReq hs h recorded
  refine ⟨?_, ?_, ?_, ?_, ?_⟩
  · rintro rfl
    exact ⟨before, after⟩
  · rintro rfl
    exact ⟨before, after⟩
  · rintro a v rfl
    exact ⟨before, after.trans before⟩
  · rintro n bytes rfl
    exact ⟨before, after.trans before⟩
  · rintro ms rfl
    exact before

end Sys2Proof.Safety
end

section
/-! PROOFS. The command word: what the decoder answers by the fields of R49, the fields of an encoded command, and
the round trips in both directions (R48 to R57). -/

namespace Sys2Proof

/-! ### Fields and answers of the decoder -/

/-- A field as arithmetic on the word's number. -/
theorem field_eq_div_mod (w : Word) (lo n : Nat) : field w lo n = w.toNat / 2 ^ lo % 2 ^ n := by
  rw [field, BitVec.extractLsb'_toNat, Nat.shiftRight_eq_div_pow]

theorem field_eq_iff (w : Word) (lo n : Nat) {k : Nat} (hk : k < 2 ^ n) :
    field w lo n = k ↔ w.extractLsb' lo n = BitVec.ofNat n k := by
  rw [field, ← BitVec.toNat_inj, BitVec.toNat_ofNat, Nat.mod_eq_of_lt hk]

/-- R50: the four values of `OP`. -/
theorem opField_cases (w : Word) : opField w = 0 ∨ opField w = 1 ∨ opField w = 2 ∨ opField w = 3 := by
  have : opField w < 2 ^ 2 := BitVec.isLt _
  omega

/-- Every answer of the decoder, with the fields that lead to it (R50, R55). -/
theorem decode_cases (w : Word) :
    (opField w = 0 ∧ decode w = .reserved .op00) ∨
    (opField w = 1 ∧ field w 4 4 ≠ 0 ∧ decode w = .reserved .startBits7to4) ∨
    (opField w = 1 ∧ field w 4 4 = 0 ∧ field w 24 8 ≠ 0 ∧ decode w = .reserved .startBits31to24) ∨
    (opField w = 1 ∧ field w 4 4 = 0 ∧ field w 24 8 = 0 ∧
      decode w = .command (.start (modeField w) (wiresField w) (hzField w))) ∨
    (opField w = 2 ∧ field w 2 30 ≠ 0 ∧ decode w = .reserved .readBits31to2) ∨
    (opField w = 2 ∧ field w 2 30 = 0 ∧ decode w = .command .read) ∨
    (opField w = 3 ∧ decode w = .reserved .op11) := by
  rcases opField_cases w with op | op | op | op
  · simp [decode, op]
  · by_cases low : field w 4 4 = 0
    · by_cases high : field w 24 8 = 0 <;> simp [decode, op, low, high]
    · simp [decode, op, low]
  · by_cases rest : field w 2 30 = 0 <;> simp [decode, op, rest]
  · simp [decode, op]

/-- The words of a START (R50, R54, R55). -/
theorem decode_eq_start_iff (w : Word) (mode wires hz : Nat) :
    decode w = .command (.start mode wires hz) ↔
      opField w = 1 ∧ field w 4 4 = 0 ∧ field w 24 8 = 0 ∧
        modeField w = mode ∧ wiresField w = wires ∧ hzField w = hz := by
  rcases decode_cases w with ⟨op, h⟩ | ⟨op, low, h⟩ | ⟨op, low, high, h⟩ | ⟨op, low, high, h⟩ |
    ⟨op, rest, h⟩ | ⟨op, rest, h⟩ | ⟨op, h⟩ <;> simp [*]

/-- The words of a READ (R50, R55). -/
theorem decode_eq_read_iff (w : Word) : decode w = .command .read ↔ opField w = 2 ∧ field w 2 30 = 0 := by
  rcases decode_cases w with ⟨op, h⟩ | ⟨op, low, h⟩ | ⟨op, low, high, h⟩ | ⟨op, low, high, h⟩ |
    ⟨op, rest, h⟩ | ⟨op, rest, h⟩ | ⟨op, h⟩ <;> simp [*]

/-- The reserved words (R55). -/
theorem decode_reserved_iff (w : Word) :
    (∃ why, decode w = .reserved why) ↔
      opField w = 0 ∨ opField w = 3 ∨ (opField w = 1 ∧ (field w 4 4 ≠ 0 ∨ field w 24 8 ≠ 0)) ∨
        (opField w = 2 ∧ field w 2 30 ≠ 0) := by
  rcases decode_cases w with ⟨op, h⟩ | ⟨op, low, h⟩ | ⟨op, low, high, h⟩ | ⟨op, low, high, h⟩ |
    ⟨op, rest, h⟩ | ⟨op, rest, h⟩ | ⟨op, h⟩ <;> simp [*]

/-! ### The two round trips -/

theorem toNat_ofNat_shiftLeft {x k : Nat} (hx : x < 2 ^ 32) (hk : x * 2 ^ k < 2 ^ 32) :
    (BitVec.ofNat 32 x <<< k).toNat = x <<< k := by
  rw [BitVec.toNat_shiftLeft, BitVec.toNat_ofNat, Nat.mod_eq_of_lt hx, Nat.shiftLeft_eq, Nat.mod_eq_of_lt hk]

/-- R57: an encoded START as a sum, its fields being disjoint. -/
theorem toNat_encode_start {mode wires hz : Nat} (h : (Instr.start mode wires hz).WellFormed) :
    (encode (.start mode wires hz)).toNat = hz * 2 ^ 16 + wires * 2 ^ 8 + mode * 2 ^ 2 + 1 := by
  obtain ⟨hmode, hwires, hhz⟩ := h
  have low : mode <<< 2 ||| 1 = mode * 2 ^ 2 + 1 := by
    rw [← Nat.shiftLeft_add_eq_or_of_lt (by decide), Nat.shiftLeft_eq]
  have middle : wires <<< 8 ||| (mode * 2 ^ 2 + 1) = wires * 2 ^ 8 + (mode * 2 ^ 2 + 1) := by
    rw [← Nat.shiftLeft_add_eq_or_of_lt (by omega), Nat.shiftLeft_eq]
  calc (encode (.start mode wires hz)).toNat
      = hz <<< 16 ||| wires <<< 8 ||| mode <<< 2 ||| 1 := by
        rw [encode, BitVec.toNat_or, BitVec.toNat_or, BitVec.toNat_or, toNat_ofNat_shiftLeft (by omega) (by omega),
          toNat_ofNat_shiftLeft (by omega) (by omega), toNat_ofNat_shiftLeft (by omega) (by omega)]
        rfl
    _ = hz <<< 16 ||| (wires * 2 ^ 8 + (mode * 2 ^ 2 + 1)) := by
        rw [Nat.or_assoc, Nat.or_assoc, low, middle]
    _ = hz * 2 ^ 16 + wires * 2 ^ 8 + mode * 2 ^ 2 + 1 := by
        rw [← Nat.shiftLeft_add_eq_or_of_lt (by omega), Nat.shiftLeft_eq, Nat.add_assoc, Nat.add_assoc]

/-- Settles O1: every field of an encoded START is cut back out of the sum. -/
theorem decodeOfEncode : Obligations.DecodeOfEncode := by
  intro i wf
  cases i with
  | start mode wires hz =>
    have word := toNat_encode_start wf
    obtain ⟨hmode, hwires, hhz⟩ := wf
    simp only [decode_eq_start_iff, opField, modeField, wiresField, hzField, field_eq_div_mod, word]
    omega
  | read => decide

theorem wellFormed_of_decode {w : Word} {i : Instr} (h : decode w = .command i) : i.WellFormed := by
  cases i with
  | start mode wires hz =>
    obtain ⟨-, -, -, rfl, rfl, rfl⟩ := (decode_eq_start_iff w mode wires hz).mp h
    exact ⟨Nat.le_of_lt_succ (BitVec.isLt _), Nat.le_of_lt_succ (BitVec.isLt _), Nat.le_of_lt_succ (BitVec.isLt _)⟩
  | read => trivial

/-- Settles O2: the fields of a command's word, with the reserved ones 0, make up the word. -/
theorem encodeOfDecode : Obligations.EncodeOfDecode := by
  intro w i h
  have wf := wellFormed_of_decode h
  refine ⟨wf, BitVec.eq_of_toNat_eq ?_⟩
  have := w.isLt
  cases i with
  | start mode wires hz =>
    rw [toNat_encode_start wf]
    simp only [decode_eq_start_iff, opField, modeField, wiresField, hzField, field_eq_div_mod] at h
    omega
  | read =>
    rw [encode, BitVec.toNat_ofNat]
    simp only [decode_eq_read_iff, opField, field_eq_div_mod] at h
    omega

/-- Settles O4: the decoder run on the eight words. -/
theorem specWordsDecode : Obligations.SpecWordsDecode := by
  unfold Obligations.SpecWordsDecode
  decide

end Sys2Proof
end

section
/-! PROOFS. When an idle sequencer refuses the word on its port (R55, R68). -/

namespace Sys2Proof.Safety

open Sys2Proof.Machine

theorem exec_ne_refused (i : Instr) (s : State) (r : Refusal) : exec i s ≠ .refused r := by
  rcases exec_cases i s with ⟨-, h⟩ | ⟨-, _, _, _, _, -, -, h⟩ | ⟨-, _, _, _, -, -, h⟩ | ⟨-, -, h⟩ <;>
    simp [h]

/-- With a word presented, the sequencer refuses by a name exactly when the decoder gives that name. -/
theorem idleStep_eq_refused_iff {s : State} (presented : s.cmdValid = true) (why : ReservedWord) :
    idleStep s = .refused (.reservedCommandWord why) ↔ decode s.cmdWord = .reserved why := by
  rw [idleStep, if_pos presented]
  cases decode s.cmdWord with
  | command i => simp [exec_ne_refused]
  | reserved why' => simp

/-- Settles O3: the refusal is the decoder's, and its cases are those of `decode_reserved_iff` on the bits. -/
theorem reservedWordsAreRefused : Obligations.ReservedWordsAreRefused := by
  intro s hat presented
  have refused (why : ReservedWord) :
      step s = .refused (.reservedCommandWord why) ↔ decode s.cmdWord = .reserved why := by
    rw [step_at_idle hat]
    exact idleStep_eq_refused_iff (s := takeMove s) presented why
  simp only [refused, decode_reserved_iff, opField, ne_eq, field_eq_iff _ _ _ (Nat.two_pow_pos _),
    field_eq_iff _ 0 2 (by decide : 1 < 2 ^ 2), field_eq_iff _ 0 2 (by decide : 2 < 2 ^ 2),
    field_eq_iff _ 0 2 (by decide : 3 < 2 ^ 2)]

end Sys2Proof.Safety
end

section
/-! PROOFS. Every field of the two configuration bytes, from the bits each operand contributes (R59 to R64). -/

namespace Sys2Proof.Machine

/-- The fields of the configuration byte, from bit 7 down (R59). -/
structure ConfigFields where
  bias       : Bool
  continuous : Bool
  oneShot    : Bool
  wiring     : Bool
  faultCycle : BitVec 2
  faultClear : Bool
  filter     : Bool

/-- The fields of `a ||| b` from those of `a` and `b`. -/
def ConfigFields.or (x y : ConfigFields) : ConfigFields where
  bias := x.bias || y.bias
  continuous := x.continuous || y.continuous
  oneShot := x.oneShot || y.oneShot
  wiring := x.wiring || y.wiring
  faultCycle := x.faultCycle ||| y.faultCycle
  faultClear := x.faultClear || y.faultClear
  filter := x.filter || y.filter

/-- What the accessors of R59 read in a byte. -/
def configFields (b : Byte) : ConfigFields where
  bias := cfgBias b
  continuous := cfgContinuous b
  oneShot := cfgOneShot b
  wiring := cfgWiring b
  faultCycle := cfgFaultCycle b
  faultClear := cfgFaultClear b
  filter := cfgFilter b

theorem configFields_or (a b : Byte) : configFields (a ||| b) = (configFields a).or (configFields b) := by
  simp only [configFields, ConfigFields.or, cfgBias, cfgContinuous, cfgOneShot, cfgWiring, cfgFaultCycle,
    cfgFaultClear, cfgFilter, BitVec.getLsbD_or, BitVec.extractLsb'_or]

/-! ### What each part of a byte sets -/

/-- R63: the constant part sets bias-enable and fault-clear. -/
theorem configFields_constant : configFields (0x80 ||| 0x02) = ⟨true, false, false, false, 0, true, false⟩ := rfl

/-- R60: the wire count sets the wiring bit alone. -/
theorem configFields_wiringBits (wires : Byte) :
    configFields (wiringBits wires) = ⟨false, false, false, decide (wires = 3), 0, false, false⟩ := by
  by_cases h : wires = 3
  · rw [wiringBits, if_pos h, decide_eq_true h]
    rfl
  · rw [wiringBits, if_neg h, decide_eq_false h]
    rfl

/-- R61: the frequency sets the filter bit alone. -/
theorem configFields_filterBits (hz : Byte) :
    configFields (filterBits hz) = ⟨false, false, false, false, 0, false, decide (hz = 50)⟩ := by
  by_cases h : hz = 50
  · rw [filterBits, if_pos h, decide_eq_true h]
    rfl
  · rw [filterBits, if_neg h, decide_eq_false h]
    rfl

/-- R62: the mode sets one of the one-shot and continuous bits. -/
theorem configFields_modeBits (mode : BitVec 2) :
    configFields (modeBits mode) = ⟨false, !decide (mode = 0), decide (mode = 0), false, 0, false, false⟩ := by
  by_cases h : mode = 0
  · rw [modeBits, if_pos h, decide_eq_true h]
    rfl
  · rw [modeBits, if_neg h, decide_eq_false h]
    rfl

/-! ### The two bytes -/

/-- R63. -/
theorem configFields_cfgPhase1 (wires hz : Byte) :
    configFields (cfgPhase1 wires hz) =
      ⟨true, false, false, decide (wires = 3), 0, true, decide (hz = 50)⟩ := by
  rw [cfgPhase1, configFields_or, configFields_or, configFields_constant, configFields_wiringBits,
    configFields_filterBits]
  simp [ConfigFields.or]

/-- R64. -/
theorem configFields_cfgPhase2 (mode : BitVec 2) (wires hz : Byte) :
    configFields (cfgPhase2 mode wires hz) =
      ⟨true, !decide (mode = 0), decide (mode = 0), decide (wires = 3), 0, true, decide (hz = 50)⟩ := by
  rw [cfgPhase2, configFields_or, configFields_cfgPhase1, configFields_modeBits]
  simp [ConfigFields.or]

/-- Settles O46: the fields of the two bytes, read off one by one. -/
theorem configurationByteFields : Obligations.ConfigurationByteFields := by
  intro mode wires hz
  obtain ⟨bias1, continuous1, oneShot1, wiring1, cycle1, clear1, filter1⟩ :=
    ConfigFields.mk.inj (configFields_cfgPhase1 wires hz)
  obtain ⟨bias2, continuous2, oneShot2, wiring2, cycle2, clear2, filter2⟩ :=
    ConfigFields.mk.inj (configFields_cfgPhase2 mode wires hz)
  constructor
  · simp [bias1, continuous1, oneShot1, wiring1, cycle1, clear1, filter1]
  · simp [bias2, continuous2, oneShot2, wiring2, cycle2, clear2, filter2]

end Sys2Proof.Machine
end

section
/-! PROOFS. The assembler reads the text it writes (R57): a line of words, blanks and commas is split into its words
and commas, and each word is read as the operand it was written of. -/

namespace Sys2Proof.Machine

/-! ### Words and tokens -/

/-- A character the assembler takes into a word. -/
abbrev WordChar (c : Char) : Prop := c ≠ ',' ∧ c ≠ ' ' ∧ c ≠ '\t' ∧ c ≠ ';'

/-- A text the assembler reads as one word. -/
structure IsWord (word : List Char) : Prop where
  ne_nil : word ≠ []
  chars  : ∀ c ∈ word, WordChar c

theorem stripComment_of_notMem {line : List Char} (h : ';' ∉ line) : stripComment line = line := by
  induction line with
  | nil => rfl
  | cons c cs ih =>
    obtain ⟨hc, hcs⟩ := not_or.mp (List.mem_cons.not.mp h)
    rw [stripComment, if_neg (Ne.symm hc), ih hcs]

theorem IsWord.semicolon_notMem {word : List Char} (h : IsWord word) : ';' ∉ word := by
  intro hmem
  obtain ⟨-, -, -, notSemicolon⟩ := h.chars _ hmem
  exact notSemicolon rfl

/-- The characters of a word are collected, last one first. -/
theorem asmTokens_append {word : List Char} (h : ∀ c ∈ word, WordChar c) (rest cur : List Char) :
    asmTokens (word ++ rest) cur = asmTokens rest (word.reverse ++ cur) := by
  induction word generalizing cur with
  | nil => rfl
  | cons c cs ih =>
    obtain ⟨⟨comma, blank, tab, -⟩, hcs⟩ := List.forall_mem_cons.mp h
    simp [asmTokens, comma, blank, tab, ih hcs]

theorem asmWord_nil : asmWord [] = [] := rfl

theorem asmWord_reverse {word : List Char} (h : word ≠ []) : asmWord word.reverse = [some word] := by
  simp [asmWord, h]

theorem asmTokens_word {word : List Char} (h : IsWord word) : asmTokens word [] = [some word] := by
  have := asmTokens_append h.chars [] []
  rwa [List.append_nil, List.append_nil, asmTokens, asmWord_reverse h.ne_nil] at this

theorem asmTokens_word_blank {word : List Char} (h : IsWord word) (rest : List Char) :
    asmTokens (word ++ ' ' :: rest) [] = some word :: asmTokens rest [] := by
  rw [asmTokens_append h.chars, List.append_nil]
  simp [asmTokens, asmWord_reverse h.ne_nil]

theorem asmTokens_word_comma {word : List Char} (h : IsWord word) (rest : List Char) :
    asmTokens (word ++ ',' :: ' ' :: rest) [] = some word :: none :: asmTokens rest [] := by
  rw [asmTokens_append h.chars, List.append_nil]
  simp [asmTokens, asmWord_nil, asmWord_reverse h.ne_nil]

/-! ### Operands -/

theorem isWord_toDigits (n : Nat) : IsWord (Nat.toDigits 10 n) := by
  refine ⟨Nat.toDigits_ne_nil, fun c hc => ?_⟩
  have digit : c.isDigit = true := Nat.isDigit_of_mem_toDigits (by decide) (by decide) hc
  refine ⟨?_, ?_, ?_, ?_⟩ <;> (rintro rfl; exact absurd digit (by decide))

theorem asmDecimal_toDigits (n : Nat) : asmDecimal (Nat.toDigits 10 n) = some n := by
  have digits : (Nat.toDigits 10 n).all Char.isDigit = true :=
    List.all_eq_true.mpr fun c hc => Nat.isDigit_of_mem_toDigits (by decide) (by decide) hc
  have value := Nat.ofDigitChars_ten_toDigits (n := n)
  rw [Nat.ofDigitChars_eq_foldl] at value
  rw [asmDecimal, if_neg (by simp [Nat.toDigits_ne_nil, digits]), value]

theorem asmNumber_toDigits {max n : Nat} (h : n ≤ max) : asmNumber max (Nat.toDigits 10 n) = some n := by
  simp [asmNumber, asmDecimal_toDigits, h]

/-- The brackets of a raw mode are part of its word. -/
theorem isWord_modeText (mode : Nat) : IsWord (modeText mode) := by
  unfold modeText
  split_ifs
  · exact ⟨by simp, by simp [WordChar]⟩
  · exact ⟨by simp, by simp [WordChar]⟩
  · have opening : ∀ c ∈ "MODE(".toList, WordChar c := by simp [WordChar]
    have closing : ∀ c ∈ [')'], WordChar c := by simp [WordChar]
    exact ⟨by simp, List.forall_mem_append.mpr
      ⟨List.forall_mem_append.mpr ⟨opening, (isWord_toDigits mode).chars⟩, closing⟩⟩

/-- R57: the four modes one by one. -/
theorem asmMode_modeText {mode : Nat} (h : mode ≤ 3) : asmMode (modeText mode) = some mode := by
  interval_cases mode <;> rfl

/-! ### Lines -/

theorem assemblerText_start (mode wires hz : Nat) :
    assemblerText (.start mode wires hz) =
      "START".toList ++ ' ' :: (modeText mode ++ ',' :: ' ' ::
        (Nat.toDigits 10 wires ++ ',' :: ' ' :: Nat.toDigits 10 hz)) := by
  have op : "START ".toList = "START".toList ++ [' '] := rfl
  have comma : ", ".toList = [',', ' '] := rfl
  unfold assemblerText
  simp only [op, comma, List.append_assoc, List.cons_append, List.nil_append]

/-- A written START is split into its four words and two commas. -/
theorem asmTokens_assemblerText_start (mode wires hz : Nat) :
    asmTokens (stripComment (assemblerText (.start mode wires hz))) [] =
      [some "START".toList, some (modeText mode), none, some (Nat.toDigits 10 wires), none,
        some (Nat.toDigits 10 hz)] := by
  have opWord : IsWord "START".toList := ⟨by simp, by simp [WordChar]⟩
  have modeWord := isWord_modeText mode
  have noComment : ';' ∉ assemblerText (.start mode wires hz) := by
    simp [assemblerText_start, modeWord.semicolon_notMem, (isWord_toDigits _).semicolon_notMem]
  rw [stripComment_of_notMem noComment, assemblerText_start, asmTokens_word_blank opWord,
    asmTokens_word_comma modeWord, asmTokens_word_comma (isWord_toDigits wires), asmTokens_word (isWord_toDigits hz)]

/-- Settles O5: the tokens of a written line, each read back as its operand. -/
theorem assemblerReadsItsOwnText : Obligations.AssemblerReadsItsOwnText := by
  intro i wf
  cases i with
  | start mode wires hz =>
    obtain ⟨hmode, hwires, hhz⟩ := wf
    simp only [assembleLine, asmTokens_assemblerText_start, asmMode_modeText hmode,
      asmNumber_toDigits hwires, asmNumber_toDigits hhz, if_true]
  | read => decide

end Sys2Proof.Machine
end

section
/-! PROOFS. The step rules of acceptance and of the configuring sequence, one micro-state at a time (R68 to R83,
R86). -/

namespace Sys2Proof.Safety

open Sys2Proof.Machine

/-! ### Acceptance in `IDLE` -/

theorem idleStep_of_command {s : State} {i : Instr} (presented : s.cmdValid = true)
    (word : decode s.cmdWord = .command i) : idleStep s = exec i (takeCommand s) := by
  simp [idleStep, presented, word]

theorem idleStep_of_not_presented {s : State} (silent : s.cmdValid = false) : idleStep s = .next s := by
  simp [idleStep, silent]

/-- Settles O6: in `IDLE` the step is acceptance, and `takeCommand` is what it does to the port. -/
theorem stepRunsTheDecodedCommand : Obligations.StepRunsTheDecodedCommand := by
  intro s i hat presented word
  rw [step_at_idle hat]
  exact idleStep_of_command (s := takeMove s) presented word

/-- Settles O8: in `IDLE` the step is acceptance, which does nothing with nothing presented. -/
theorem idleWithoutCommandChangesNothing : Obligations.IdleWithoutCommandChangesNothing := by
  intro s hat silent
  rw [step_at_idle hat]
  exact idleStep_of_not_presented (s := takeMove s) silent

/-- R70: the checks of START, with the operands each turns away written out. -/
theorem inputError_eq_ite (mode wires hz : Nat) :
    inputError mode wires hz =
      if wires ≠ 2 ∧ wires ≠ 3 ∧ wires ≠ 4 then some .wireInputError
      else if hz ≠ 50 ∧ hz ≠ 60 then some .hzInputError
      else if mode ≠ 0 ∧ mode ≠ 1 then some .modeInputError
      else none := by
  simp only [inputError, WiresValid, HzValid, ModeValid, not_or, ne_eq]

theorem exec_start_of_invalid {mode wires hz : Nat} {e : Status} {s : State} (idle : s.micro = some .idle)
    (invalid : inputError mode wires hz = some e) :
    exec (.start mode wires hz) s = .next (respondConfiguring e (clearResponse s)) := by
  simp [exec, execStart, (State.cmdReady_iff s).mpr idle, invalid]

theorem exec_start_of_valid {mode wires hz : Nat} {s : State} (idle : s.micro = some .idle)
    (valid : inputError mode wires hz = none) :
    exec (.start mode wires hz) s = .next (enterConfiguring (BitVec.ofNat 2 mode) (BitVec.ofNat 8 wires)
      (BitVec.ofNat 8 hz) false (clearResponse s)) := by
  simp [exec, execStart, (State.cmdReady_iff s).mpr idle, valid]

theorem exec_read_of_idle {s : State} (idle : s.micro = some .idle) :
    exec .read s = .next ((clearResponse s).goto .rReady) := by
  simp [exec, execRead, (State.cmdReady_iff s).mpr idle]

/-- R70, R71: an idle START with an input error writes only the response. -/
theorem exec_start_rejects {mode wires hz : Nat} {e : Status} {s : State} (idle : s.micro = some .idle)
    (ctx : s.ctx = false) (invalid : inputError mode wires hz = some e) :
    exec (.start mode wires hz) s = .next
      { s with
        rspValid := true, rspStatus := e.code, resultValid := false, cmd := none
        responses := s.responses ++ [⟨e.code, false, s.tempC, s.tempK, s.tempF⟩] } := by
  rw [exec_start_of_invalid idle invalid]
  have st := MicroState.code_of_ofCode idle
  cases s
  cases st
  cases ctx
  rfl

/-- Settles O14: each check of R70 in turn, then the entry of R72. -/
theorem startAcceptance : Obligations.StartAcceptance := by
  intro mode wires hz s idle ctx
  have checks := inputError_eq_ite mode wires hz
  split_ifs at checks ⊢
  · exact exec_start_rejects idle ctx checks
  · exact exec_start_rejects idle ctx checks
  · exact exec_start_rejects idle ctx checks
  · exact exec_start_of_valid idle checks

/-- Settles O30: the entry into `R_READY`, written out. -/
theorem readAcceptance : Obligations.ReadAcceptance :=
  fun _ idle => exec_read_of_idle idle

/-! ### The micro-states of the configuring sequence -/

/-- R75, R81: what reading the configuration register back into `rb` writes, on the way to `m`. -/
theorem readback_goto_eq (s : State) (m : MicroState) :
    ((memRead1 (DeviceReg.readAddress .configuration) s).setRb s.devByte).goto m =
      { s with
        history := s.history ++ [.busRd 0x00 1 [s.devByte]], rb := s.devByte, st := m.code
        devBytes := s.devBytes.tail, draws := s.draws + 1 } := rfl

/-- Settles O15: `cP1CsEnter` with the byte of R63 written out. -/
theorem enterBiasPhase : Obligations.EnterBiasPhase :=
  fun _ hat => step_at hat (by decide)

/-- Settles O16: `cP1Write` writes the configuration register, whose address is 0x00. -/
theorem writeBiasByte : Obligations.WriteBiasByte :=
  fun _ hat => step_at hat (by decide)

/-- Settles O17: `cP1Readback` draws one byte for the configuration register. -/
theorem readBiasByteBack : Obligations.ReadBiasByteBack := by
  intro s hat
  rw [step_at hat (by decide)]
  exact congrArg Host.Outcome.next (readback_goto_eq (takeMove s) .cP1CsLeave)

/-- Settles O20: `cDelay` with the byte of R64 written out. -/
theorem settleAndBuildArmByte : Obligations.SettleAndBuildArmByte :=
  fun _ hat => step_at hat (by decide)

/-- Settles O21: `cP2CsEnter` enters the second critical section. -/
theorem enterArmPhase : Obligations.EnterArmPhase :=
  fun _ hat => step_at hat (by decide)

/-- Settles O22: `cP2Write` writes the configuration register, whose address is 0x00. -/
theorem writeArmByte : Obligations.WriteArmByte :=
  fun _ hat => step_at hat (by decide)

/-- Settles O23: `cP2Readback` draws one byte for the configuration register. -/
theorem readArmByteBack : Obligations.ReadArmByteBack := by
  intro s hat
  rw [step_at hat (by decide)]
  exact congrArg Host.Outcome.next (readback_goto_eq (takeMove s) .cP2CsLeave)

/-- Settles O25: outside a retry and inside one (R83, R117). -/
theorem respondOfConfiguring : Obligations.RespondOfConfiguring := by
  intro x s
  cases ctx : s.ctx with
  | false => simp [ctx, complete, State.clearCtx, MicroState.code]
  | true => simp [ctx, complete, State.clearCtx, MicroState.code]

/-! ### The verification (R76, R77, R82) -/

theorem cP1CsLeave_eq (s : State) :
    cP1CsLeave s =
      if s.rb ≠ s.cfgbyte then respondConfiguring .errorPreconfiguring (csLeave s)
      else (csLeave s).goto .cDelay := by
  simp only [cP1CsLeave, mismatch_eq_true_iff]

theorem cP2CsLeave_eq (s : State) :
    cP2CsLeave s =
      if s.rb ≠ s.cfgbyte then respondConfiguring .errorConfiguring (csLeave s)
      else respondConfiguring .ok (commitConfiguration (csLeave s)) := by
  simp only [cP2CsLeave, mismatch_eq_true_iff]

/-- Settles O18: the critical section is left on both sides of the comparison. -/
theorem leaveBiasPhase : Obligations.LeaveBiasPhase := by
  intro s hat
  rw [step_at hat (by decide), microStep, cP1CsLeave_eq]
  rfl

/-- Settles O24: the critical section is left on both sides of the comparison, and one commits. -/
theorem leaveArmPhaseAndCommit : Obligations.LeaveArmPhaseAndCommit := by
  intro s hat
  rw [step_at hat (by decide), microStep, cP2CsLeave_eq]
  rfl

theorem byte_eq_iff_bits (a b : Byte) : a = b ↔ ∀ i, i < 8 → a.getLsbD i = b.getLsbD i :=
  ⟨fun h _ _ => h ▸ rfl, BitVec.eq_of_getLsbD_eq⟩

theorem cP1CsLeave_goes_on_iff (s : State) : (cP1CsLeave s).micro = some .cDelay ↔ s.rb = s.cfgbyte := by
  rw [cP1CsLeave_eq]
  split
  next differ => exact iff_of_false nofun differ
  next agree => exact iff_of_true (State.micro_goto _ _) (not_not.mp agree)

theorem cP2CsLeave_arms_iff {s : State} (disarmed : s.armed = false) :
    (cP2CsLeave s).armed = true ↔ s.rb = s.cfgbyte := by
  rw [cP2CsLeave_eq]
  split
  next differ => exact iff_of_false (by simp [disarmed]) differ
  next agree => exact iff_of_true rfl (not_not.mp agree)

/-- Settles O19: either phase goes on exactly when the two bytes are equal, which is bit by bit. -/
theorem verificationComparesEveryBit : Obligations.VerificationComparesEveryBit := by
  constructor
  · intro s hat
    refine ⟨_, step_at hat (by decide), ?_⟩
    rw [← byte_eq_iff_bits]
    exact cP1CsLeave_goes_on_iff (takeMove s)
  · intro s hat disarmed
    refine ⟨_, step_at hat (by decide), ?_⟩
    rw [← byte_eq_iff_bits]
    exact cP2CsLeave_arms_iff (s := takeMove s) disarmed

end Sys2Proof.Safety
end

section
/-! PROOFS. The configuring sequence as a whole run: nine steps of the machine give `configuringRun`, which ends in
one of three ways (R69, R73 to R83). -/

namespace Sys2Proof.Safety

open Sys2Proof.Machine

/-! ### Runs in which only the sequencer moves -/

/-- The sequencer stands at `m` and no other agent has a move to come, so that every further step is its own. -/
structure Alone (s : State) (m : MicroState) : Prop extends At s m where
  undisturbed : s.agenda = []

theorem Alone.of_fields {s t : State} {m m' : MicroState} (h : Alone s m) (micro : t.micro = some m')
    (status : t.rspStatus = s.rspStatus) (agenda : t.agenda = s.agenda) : Alone t m' :=
  ⟨at_of_fields h.toAt micro status agenda, agenda.trans h.undisturbed⟩

theorem Alone.runSteps_succ {s : State} {m : MicroState} (h : Alone s m) (busy : m ≠ .idle) (k : Nat) :
    runSteps (k + 1) s = runSteps k (microStep m s) :=
  Machine.runSteps_succ k (step_at_of_nil h.toAt h.undisturbed busy)

/-- What a configuring sequence needs to stay where it ends: nobody else moves, nothing waits, and in a retry the
status to be reported is one of R58 (R83). -/
structure Quiet (s : State) : Prop where
  agenda : s.agenda = []
  silent : s.cmdValid = false
  pend_legal : s.ctx = true → Status.ofCode s.pend ≠ none

theorem Quiet.runSteps_respondConfiguring {u : State} (h : Quiet u) (x : Status) (k : Nat) :
    runSteps k (respondConfiguring x u) = .next (respondConfiguring x u) := by
  have legal : Status.ofCode (respondConfiguring x u).rspStatus ≠ none := by
    rw [respondConfiguring_status]
    split
    next retry => exact h.pend_legal retry
    next => simp
  exact runSteps_idle k ⟨rfl, legal, nextMove_of_nil h.agenda⟩ h.agenda h.silent

/-! ### The two phases -/

/-- One phase is: enter the critical section, write the byte, read it back, leave (R84). -/
theorem afterPhase_eq (c : Byte) (s : State) :
    afterPhase c s =
      csLeave ((memRead1 0x00 (memWrite 0x00 c ((csEnter s).setCfgbyte c))).setRb s.devByte) := by
  rw [memWrite_eq, memRead1_eq, State.record_devByte, State.setCfgbyte_devByte, csEnter_devByte]
  simp [afterPhase, csLeave, State.setRb, State.record, State.popByte, State.setCfgbyte, csEnter, phaseEvents]

/-- `s` after the bias phase. -/
def afterBias (s : State) : State := afterPhase (cfgPhase1 s.wWires s.wHz) s

/-- `s` after the delay and the mode-arm phase. -/
def afterArm (s : State) : State :=
  afterPhase (cfgPhase2 s.wMode s.wWires s.wHz) (s.record (.dly Config.settleMs))

/-- R69 from the delay on. -/
def armRun (s : State) : State :=
  if s.devByte ≠ cfgPhase2 s.wMode s.wWires s.wHz then respondConfiguring .errorConfiguring (afterArm s)
  else respondConfiguring .ok (commitConfiguration (afterArm s))

/-- R69's whole sequence: the bias phase, and the rest unless it fails. -/
theorem configuringRun_eq (s : State) :
    configuringRun s =
      if s.devByte ≠ cfgPhase1 s.wWires s.wHz then respondConfiguring .errorPreconfiguring (afterBias s)
      else armRun (afterBias s) := rfl

theorem biasSteps_eq (s : State) :
    cP1CsLeave (cP1Readback (cP1Write (cP1CsEnter s))) =
      if s.devByte ≠ cfgPhase1 s.wWires s.wHz then respondConfiguring .errorPreconfiguring (afterBias s)
      else (afterBias s).goto .cDelay := by
  rw [cP1CsLeave_eq, afterBias, afterPhase_eq]
  rfl

theorem armSteps_eq (s : State) :
    cP2CsLeave (cP2Readback (cP2Write (cP2CsEnter (cDelay s)))) = armRun s := by
  rw [cP2CsLeave_eq, armRun, afterArm, afterPhase_eq]
  rfl

theorem runSteps_bias {s : State} (h : Alone s .cP1CsEnter) (k : Nat) :
    runSteps (k + 4) s = runSteps k (cP1CsLeave (cP1Readback (cP1Write (cP1CsEnter s)))) := by
  have write : Alone (cP1CsEnter s) .cP1Write := h.of_fields rfl rfl rfl
  have readback : Alone (cP1Write (cP1CsEnter s)) .cP1Readback := h.of_fields rfl rfl rfl
  have leave : Alone (cP1Readback (cP1Write (cP1CsEnter s))) .cP1CsLeave := h.of_fields rfl rfl rfl
  rw [h.runSteps_succ (by decide), microStep, write.runSteps_succ (by decide), microStep,
    readback.runSteps_succ (by decide), microStep, leave.runSteps_succ (by decide), microStep]

theorem runSteps_arm {s : State} (h : Alone s .cDelay) (k : Nat) : runSteps (k + 5) s = runSteps k (armRun s) := by
  have enter : Alone (cDelay s) .cP2CsEnter := h.of_fields rfl rfl rfl
  have write : Alone (cP2CsEnter (cDelay s)) .cP2Write := h.of_fields rfl rfl rfl
  have readback : Alone (cP2Write (cP2CsEnter (cDelay s))) .cP2Readback := h.of_fields rfl rfl rfl
  have leave : Alone (cP2Readback (cP2Write (cP2CsEnter (cDelay s)))) .cP2CsLeave := h.of_fields rfl rfl rfl
  rw [h.runSteps_succ (by decide), microStep, enter.runSteps_succ (by decide), microStep,
    write.runSteps_succ (by decide), microStep, readback.runSteps_succ (by decide), microStep,
    leave.runSteps_succ (by decide), microStep, armSteps_eq]

/-! ### The whole sequence -/

theorem Quiet.runSteps_armRun {s : State} (h : Quiet s) (k : Nat) :
    runSteps k (armRun s) = .next (armRun s) := by
  unfold armRun
  split
  · exact runSteps_respondConfiguring (u := afterArm s) ⟨h.agenda, h.silent, h.pend_legal⟩ _ k
  · exact runSteps_respondConfiguring (u := commitConfiguration (afterArm s))
      ⟨h.agenda, h.silent, h.pend_legal⟩ _ k

/-- R69: nine steps from `C_P1_CSENTER` run the whole sequence, and further ones stay where it ended. -/
theorem runSteps_configuring {s : State} (h : Alone s .cP1CsEnter) (quiet : Quiet s) (k : Nat) :
    runSteps (k + 9) s = .next (configuringRun s) := by
  have ends : Quiet (afterBias s) := ⟨quiet.agenda, quiet.silent, quiet.pend_legal⟩
  rw [runSteps_bias h (k + 5), biasSteps_eq, configuringRun_eq]
  split
  · exact ends.runSteps_respondConfiguring _ _
  · have settle : Alone ((afterBias s).goto .cDelay) .cDelay := h.of_fields (State.micro_goto _ _) rfl rfl
    exact (runSteps_arm settle k).trans (ends.runSteps_armRun k)

/-- The ends of the configuring sequence entered in `s`, by the device's next two answers (R76, R82). -/
inductive ConfiguringEnd (s : State) : State → Prop where
  /-- The bias phase fails its verification. -/
  | failsBias (differ : s.devByte ≠ cfgPhase1 s.wWires s.wHz) :
      ConfiguringEnd s (respondConfiguring .errorPreconfiguring (afterBias s))
  /-- The mode-arm phase fails its verification. -/
  | failsArm (bias : s.devByte = cfgPhase1 s.wWires s.wHz)
      (differ : s.popByte.devByte ≠ cfgPhase2 s.wMode s.wWires s.wHz) :
      ConfiguringEnd s (respondConfiguring .errorConfiguring (afterArm (afterBias s)))
  /-- Both phases verify. -/
  | verifies (bias : s.devByte = cfgPhase1 s.wWires s.wHz)
      (arm : s.popByte.devByte = cfgPhase2 s.wMode s.wWires s.wHz) :
      ConfiguringEnd s (respondConfiguring .ok (commitConfiguration (afterArm (afterBias s))))

theorem configuringRun_end (s : State) : ConfiguringEnd s (configuringRun s) := by
  rw [configuringRun_eq]
  split
  next differ => exact .failsBias differ
  next bias =>
    unfold armRun
    split
    next differ => exact .failsArm (not_not.mp bias) differ
    next arm => exact .verifies (not_not.mp bias) (not_not.mp arm)

/-- The records of the configuring sequence entered in `s` (R84). -/
def configuringEvents (s : State) : List Event :=
  phaseEvents (cfgPhase1 s.wWires s.wHz) s.devByte ++
    if s.devByte ≠ cfgPhase1 s.wWires s.wHz then []
    else .dly Config.settleMs :: phaseEvents (cfgPhase2 s.wMode s.wWires s.wHz) s.popByte.devByte

theorem ConfiguringEnd.history {s t : State} (h : ConfiguringEnd s t) :
    t.history = s.history ++ configuringEvents s := by
  cases h with
  | failsBias differ => simp [configuringEvents, differ, afterBias]
  | failsArm bias | verifies bias => simp [configuringEvents, bias, afterArm, afterBias]

end Sys2Proof.Safety
end

section
/-! PROOFS. START as a whole command: it runs as R69 writes it out, with the histories of R84 and the outcomes of
R85. -/

namespace Sys2Proof.Safety

open Sys2Proof.Machine

/-! ### Acceptance and the run -/

theorem Awaits.at_idle {s : State} {i : Instr} (h : Awaits s i) : At s .idle :=
  ⟨h.idle, h.status_legal, nextMove_of_nil h.undisturbed⟩

theorem Awaits.step_eq {s : State} {i : Instr} (h : Awaits s i) : step s = exec i (takeCommand s) := by
  rw [step_at_idle_of_nil h.at_idle h.undisturbed, idleStep_of_command h.presented h.word]

/-- `s` after the acceptance of a START with valid operands (R72). -/
def startEntry (mode wires hz : Nat) (s : State) : State :=
  enterConfiguring (BitVec.ofNat 2 mode) (BitVec.ofNat 8 wires) (BitVec.ofNat 8 hz) false
    (clearResponse (takeCommand s))

theorem startRun_of_invalid {mode wires hz : Nat} {e : Status} (s : State)
    (invalid : inputError mode wires hz = some e) :
    startRun mode wires hz s = respondConfiguring e (clearResponse (takeCommand s)) := by
  unfold startRun
  unfold inputError at invalid
  split_ifs at invalid ⊢ <;> cases invalid <;> rfl

theorem startRun_of_valid {mode wires hz : Nat} (s : State) (valid : inputError mode wires hz = none) :
    startRun mode wires hz s = configuringRun (startEntry mode wires hz s) := by
  unfold startRun
  unfold inputError at valid
  split_ifs at valid ⊢
  rfl

theorem runSteps_start {mode wires hz : Nat} {s : State} (h : Awaits s (.start mode wires hz)) :
    runSteps 10 s = .next (startRun mode wires hz s) := by
  cases checks : inputError mode wires hz with
  | some e =>
    have accepted : step s = .next (respondConfiguring e (clearResponse (takeCommand s))) :=
      h.step_eq.trans (exec_start_of_invalid h.idle checks)
    rw [runSteps_succ 9 accepted, startRun_of_invalid s checks]
    exact Quiet.runSteps_respondConfiguring (u := clearResponse (takeCommand s))
      ⟨h.undisturbed, rfl, fun retry => absurd (h.not_retry.symm.trans retry) (by decide)⟩ e 9
  | none =>
    have accepted : step s = .next (startEntry mode wires hz s) :=
      h.step_eq.trans (exec_start_of_valid h.idle checks)
    have entered : Alone (startEntry mode wires hz s) .cP1CsEnter :=
      ⟨at_of_fields h.at_idle rfl rfl rfl, h.undisturbed⟩
    rw [runSteps_succ 9 accepted, startRun_of_valid s checks]
    exact runSteps_configuring entered ⟨h.undisturbed, rfl, nofun⟩ 0

/-- How a START ends: with the input error of R70, or as its configuring sequence does. -/
theorem startRun_cases (mode wires hz : Nat) (s : State) :
    (∃ e, inputError mode wires hz = some e ∧
      startRun mode wires hz s = respondConfiguring e (clearResponse (takeCommand s))) ∨
    (inputError mode wires hz = none ∧
      ConfiguringEnd (startEntry mode wires hz s) (startRun mode wires hz s)) := by
  cases checks : inputError mode wires hz with
  | some e => exact .inl ⟨e, rfl, startRun_of_invalid s checks⟩
  | none => exact .inr ⟨rfl, startRun_of_valid s checks ▸ configuringRun_end _⟩

/-- Settles O26: the acceptance step and the nine steps of the configuring sequence. -/
theorem startRunsAsWritten : Obligations.StartRunsAsWritten := by
  intro mode wires hz s h
  refine ⟨runSteps_start h, ?_⟩
  cases checks : inputError mode wires hz with
  | some e =>
    rw [startRun_of_invalid s checks]
    exact ⟨rfl, rfl⟩
  | none =>
    obtain ⟨idle, port, -⟩ := configuringRun_ends (startEntry mode wires hz s)
    rw [startRun_of_valid s checks]
    exact ⟨idle, port⟩

/-! ### What a START leaves -/

/-- Settles O27: the history of each way in which a START ends. -/
theorem startHistories : Obligations.StartHistories := by
  intro mode wires hz s h
  refine ⟨_, runSteps_start h, ?_⟩
  rcases startRun_cases mode wires hz s with ⟨e, invalid, run⟩ | ⟨valid, ends⟩
  · rw [run]
    exact .inl ⟨⟨e, invalid, by simp [h.not_retry]⟩, rfl⟩
  · have history := ends.history
    rw [configuringEvents] at history
    refine .inr ?_
    generalize startRun mode wires hz s = t at ends history
    cases ends with
    | failsBias differ =>
      rw [if_pos differ] at history
      exact .inl ⟨valid, differ, rfl, history⟩
    | failsArm bias differ =>
      rw [if_neg (not_not.mpr bias), bias] at history
      exact .inr (.inl ⟨valid, bias, differ, rfl, history⟩)
    | verifies bias arm =>
      rw [if_neg (not_not.mpr bias), bias, arm] at history
      exact .inr (.inr ⟨valid, bias, arm, rfl, history⟩)

/-- Valid operands fit the registers that hold them. -/
theorem operands_toNat {mode wires hz : Nat} (valid : inputError mode wires hz = none) :
    (BitVec.ofNat 2 mode).toNat = mode ∧ (BitVec.ofNat 8 wires).toNat = wires ∧ (BitVec.ofNat 8 hz).toNat = hz := by
  obtain ⟨hmode, hwires, hhz⟩ := (inputError_eq_none_iff mode wires hz).mp valid
  simp only [BitVec.toNat_ofNat]
  omega

/-- Settles O28: only the verified end commits, and it commits the operands of the START. -/
theorem startStoresItsInputsOrNothing : Obligations.StartStoresItsInputsOrNothing := by
  intro mode wires hz s h
  refine ⟨_, runSteps_start h, ?_⟩
  rcases startRun_cases mode wires hz s with ⟨e, invalid, run⟩ | ⟨valid, ends⟩
  · rw [run, if_neg (by simp [invalid])]
    exact ⟨rfl, rfl, ⟨e, invalid, by simp [h.not_retry]⟩, rfl, rfl, rfl, rfl, rfl, rfl⟩
  · rw [if_pos valid]
    generalize startRun mode wires hz s = t at ends
    cases ends with
    | failsBias => exact ⟨rfl, rfl, .inr ⟨.inl rfl, rfl, rfl, rfl, rfl, rfl⟩⟩
    | failsArm => exact ⟨rfl, rfl, .inr ⟨.inr rfl, rfl, rfl, rfl, rfl, rfl⟩⟩
    | verifies => exact ⟨rfl, rfl, .inl ⟨rfl, rfl, rfl, operands_toNat valid⟩⟩

/-- ECHO on the records of one phase: its read-back is the byte it wrote. -/
theorem echoes_phaseEvents (last : Option Byte) (c r : Byte) (rest : List Event) :
    echoes last (phaseEvents c r ++ rest) = (r == c && echoes (some c) rest) := by
  simp [phaseEvents, echoes]

/-- ECHO on the records of a configuring sequence: both read-backs are the bytes written. -/
theorem readbacks_of_echoes {s : State} (h : echoes none (configuringEvents s) = true) :
    s.devByte = cfgPhase1 s.wWires s.wHz ∧ s.popByte.devByte = cfgPhase2 s.wMode s.wWires s.wHz := by
  rw [configuringEvents, echoes_phaseEvents, Bool.and_eq_true, beq_iff_eq] at h
  obtain ⟨bias, rest⟩ := h
  rw [if_neg (not_not.mpr bias), echoes, ← List.append_nil (phaseEvents _ _), echoes_phaseEvents, Bool.and_eq_true,
    beq_iff_eq] at rest
  exact ⟨bias, rest.1⟩

/-- Settles O29: under ECHO both read-backs agree, so the sequence ends verified. -/
theorem startAgainstAnEchoingDevice : Obligations.StartAgainstAnEchoingDevice := by
  intro mode wires hz s h valid
  refine ⟨_, runSteps_start h, fun echo => ?_⟩
  have ends : ConfiguringEnd (startEntry mode wires hz s) (startRun mode wires hz s) :=
    startRun_of_valid s valid ▸ configuringRun_end _
  have records : (startRun mode wires hz s).history.drop s.history.length =
      configuringEvents (startEntry mode wires hz s) := by
    rw [ends.history]
    exact List.drop_left
  obtain ⟨bias, arm⟩ := readbacks_of_echoes (records ▸ echo)
  generalize startRun mode wires hz s = t at ends
  cases ends with
  | failsBias differ => exact absurd bias differ
  | failsArm _ differ => exact absurd arm differ
  | verifies => exact ⟨rfl, rfl, rfl⟩

end Sys2Proof.Safety
end

section
/-! PROOFS. READ as a whole command: it runs as R86 writes it out, with the histories of R96, and never changes the
stored Configuration (R97). -/

namespace Sys2Proof.Safety

open Sys2Proof.Machine

/-! ### The stretches of a READ -/

/-- `s` after the acceptance of a READ and its code fetch. -/
def fetched (s : State) : State := afterFetch (clearResponse (takeCommand s))

@[simp] theorem fetched_rspStatus (s : State) : (fetched s).rspStatus = s.rspStatus := by simp [fetched]
@[simp] theorem fetched_cmdValid (s : State) : (fetched s).cmdValid = false := by simp [fetched]
@[simp] theorem fetched_agenda (s : State) : (fetched s).agenda = s.agenda := by simp [fetched]
@[simp] theorem fetched_cfgValid (s : State) : (fetched s).cfgValid = s.cfgValid := by simp [fetched]
@[simp] theorem fetched_cfgMode (s : State) : (fetched s).cfgMode = s.cfgMode := by simp [fetched]
@[simp] theorem fetched_cfgWires (s : State) : (fetched s).cfgWires = s.cfgWires := by simp [fetched]
@[simp] theorem fetched_cfgHz (s : State) : (fetched s).cfgHz = s.cfgHz := by simp [fetched]

/-- The entry of the retry after a fault, `u` being the state after the code fetch (R89). -/
def retryEntry (u : State) : State :=
  enterConfiguring u.cfgMode u.cfgWires u.cfgHz true (afterFaultFetch u)

/-- R86 after the fault-status fetch: the retry, or the fault's status without a stored Configuration. -/
theorem readRun_of_fault {s : State} (fault : faultFlag (fetched s).raw = true) :
    readRun s =
      if s.cfgValid then configuringRun (retryEntry (fetched s))
      else respondRead (classify (fetched s).devByte) (afterFaultFetch (fetched s)) := by
  have bit : (afterFetch (clearResponse (takeCommand s))).raw.getLsbD 15 = true := fault
  rw [readRun, if_pos bit]
  simp [retryEntry, fetched]

/-- R86 without a fault: the conversion. -/
theorem readRun_of_noFault {s : State} (noFault : faultFlag (fetched s).raw = false) :
    readRun s = rConvert (fetched s) :=
  if_neg (Bool.eq_false_iff.mp noFault)

theorem fetchSteps_eq (u : State) :
    rCode (rReady (u.goto .rReady)) =
      (afterFetch u).goto (if faultFlag (afterFetch u).raw then .rFault else .rConvert) := by
  rfl

theorem faultStep_eq (u : State) :
    rFault (u.goto .rFault) =
      if u.cfgValid then retryEntry u else respondRead (classify u.devByte) (afterFaultFetch u) := by
  rfl

theorem convertStep_eq (u : State) : rConvert (u.goto .rConvert) = rConvert u := by
  rfl

/-! ### The run -/

theorem fetched_alone {s : State} (h : Awaits s .read) (m : MicroState) : Alone ((fetched s).goto m) m :=
  ⟨at_of_fields h.at_idle (State.micro_goto _ m) (by simp) (by simp), by simp [h.undisturbed]⟩

theorem runSteps_fetch {s : State} (h : Awaits s .read) (k : Nat) :
    runSteps (k + 3) s =
      runSteps k ((fetched s).goto (if faultFlag (fetched s).raw then .rFault else .rConvert)) := by
  have accepted : step s = .next ((clearResponse (takeCommand s)).goto .rReady) :=
    h.step_eq.trans (exec_read_of_idle h.idle)
  have ready : Alone ((clearResponse (takeCommand s)).goto .rReady) .rReady :=
    ⟨at_of_fields h.at_idle (State.micro_goto _ _) rfl rfl, h.undisturbed⟩
  have code : Alone (rReady ((clearResponse (takeCommand s)).goto .rReady)) .rCode := ready.of_fields rfl rfl rfl
  rw [runSteps_succ _ accepted, ready.runSteps_succ (by decide), microStep, code.runSteps_succ (by decide), microStep,
    fetchSteps_eq, fetched]

/-- A READ that ends without a retry stays where it ended. -/
theorem runSteps_respondRead {u : State} (x : Status) (agenda : u.agenda = []) (silent : u.cmdValid = false) (k : Nat) :
    runSteps k (respondRead x u) = .next (respondRead x u) :=
  runSteps_idle k ⟨rfl, by simp, nextMove_of_nil agenda⟩ agenda silent

theorem runSteps_rConvert {u : State} (agenda : u.agenda = []) (silent : u.cmdValid = false) (k : Nat) :
    runSteps k (rConvert u) = .next (rConvert u) := by
  unfold rConvert
  split
  · exact runSteps_respondRead _ agenda silent k
  · exact runSteps_respondRead (u := writeReading _ u) _ agenda silent k

/-- R86: a READ runs as written out. -/
theorem runSteps_read {s : State} (h : Awaits s .read) : runSteps 13 s = .next (readRun s) := by
  rw [runSteps_fetch h 10]
  cases flag : faultFlag (fetched s).raw with
  | false =>
    have standing := fetched_alone h .rConvert
    rw [readRun_of_noFault flag, ← convertStep_eq]
    exact (standing.runSteps_succ (by decide) 9).trans (runSteps_rConvert standing.undisturbed (by simp) 9)
  | true =>
    have standing := fetched_alone h .rFault
    refine (standing.runSteps_succ (by decide) 9).trans ?_
    rw [microStep, faultStep_eq, fetched_cfgValid, readRun_of_fault flag]
    cases stored : s.cfgValid with
    | false => exact runSteps_respondRead _ (by simp [h.undisturbed]) (by simp) 9
    | true =>
      have entered : Alone (retryEntry (fetched s)) .cP1CsEnter :=
        standing.of_fields (enterConfiguring_micro ..) (by simp [retryEntry]) (by simp [retryEntry])
      have quiet : Quiet (retryEntry (fetched s)) :=
        ⟨by simp [retryEntry, h.undisturbed], by simp [retryEntry], by simp [retryEntry]⟩
      exact runSteps_configuring entered quiet 0

/-! ### The histories of a READ -/

theorem accepted_popReady_devByte (s : State) :
    (clearResponse (takeCommand s)).popReady.devByte = s.popReady.devByte :=
  State.devByte_congr rfl rfl

theorem accepted_popReady_popByte_devByte (s : State) :
    (clearResponse (takeCommand s)).popReady.popByte.devByte = s.popReady.popByte.devByte :=
  State.devByte_congr rfl rfl

theorem fetched_history (s : State) :
    (fetched s).history =
      s.history ++ [.rdy s.devReady, .busRd 0x01 2 [s.popReady.devByte, s.popReady.popByte.devByte]] := by
  simp [fetched, accepted_popReady_devByte, accepted_popReady_popByte_devByte]

theorem fetched_raw (s : State) : (fetched s).raw = s.popReady.devByte ++ s.popReady.popByte.devByte := by
  simp [fetched, accepted_popReady_devByte, accepted_popReady_popByte_devByte]

/-- R34, R66: the fault flag is the top bit of the first byte of the code fetch. -/
theorem fetched_faultFlag (s : State) : faultFlag (fetched s).raw = s.popReady.devByte.getLsbD 7 := by
  rw [faultFlag, fetched_raw, BitVec.getLsbD_append, if_neg (by decide)]

@[simp] theorem fetched_devByte (s : State) : (fetched s).devByte = s.popReady.popByte.popByte.devByte :=
  State.devByte_congr (by simp [fetched]) (by simp [fetched])

/-- The first two answers of the device in a retry, after the ready sample, the code and the fault status. -/
theorem retryEntry_devByte (s : State) :
    (retryEntry (fetched s)).devByte = s.popReady.popByte.popByte.popByte.devByte :=
  State.devByte_congr (by simp [retryEntry, fetched]) (by simp [retryEntry, fetched])

theorem retryEntry_popByte_devByte (s : State) :
    (retryEntry (fetched s)).popByte.devByte = s.popReady.popByte.popByte.popByte.popByte.devByte :=
  State.devByte_congr (by simp [retryEntry, fetched]) (by simp [retryEntry, fetched])

theorem retryEntry_wMode (s : State) : (retryEntry (fetched s)).wMode = s.cfgMode := fetched_cfgMode s
theorem retryEntry_wWires (s : State) : (retryEntry (fetched s)).wWires = s.cfgWires := fetched_cfgWires s
theorem retryEntry_wHz (s : State) : (retryEntry (fetched s)).wHz = s.cfgHz := fetched_cfgHz s

theorem retryEntry_history (s : State) :
    (retryEntry (fetched s)).history =
      s.history ++ [.rdy s.devReady, .busRd 0x01 2 [s.popReady.devByte, s.popReady.popByte.devByte],
        .busRd 0x07 1 [s.popReady.popByte.popByte.devByte]] := by
  simp [retryEntry, fetched_history]

theorem rConvert_history (u : State) : (rConvert u).history = u.history :=
  (microStep_history .rConvert u).trans (List.append_nil _)

/-- Settles O39: the code fetch, then what each way of going on after it records. -/
theorem readHistories : Obligations.ReadHistories := by
  intro s h
  refine ⟨_, runSteps_read h, ?_⟩
  have flag := fetched_faultFlag s
  dsimp only
  cases fault : s.popReady.devByte.getLsbD 7 with
  | false =>
    rw [readRun_of_noFault (flag.trans fault), rConvert_history, fetched_history]
    simp
  | true =>
    rw [readRun_of_fault (flag.trans fault)]
    cases stored : s.cfgValid with
    | false => simp [fetched_history]
    | true =>
      rw [if_pos rfl, (configuringRun_end (retryEntry (fetched s))).history, retryEntry_history, configuringEvents,
        retryEntry_devByte, retryEntry_popByte_devByte, retryEntry_wMode, retryEntry_wWires, retryEntry_wHz]
      by_cases bias : s.popReady.popByte.popByte.popByte.devByte = cfgPhase1 s.cfgWires s.cfgHz
      · simp [bias, phaseEvents]
      · simp [bias, phaseEvents]

/-! ### The stored Configuration -/

/-- A configuring sequence with the stored operands stores them again or leaves them. -/
theorem ConfiguringEnd.keeps_configuration {s t : State} (h : ConfiguringEnd s t) (valid : s.cfgValid = true)
    (mode : s.wMode = s.cfgMode) (wires : s.wWires = s.cfgWires) (hz : s.wHz = s.cfgHz) :
    t.cfgValid = s.cfgValid ∧ t.cfgMode = s.cfgMode ∧ t.cfgWires = s.cfgWires ∧ t.cfgHz = s.cfgHz := by
  cases h with
  | failsBias | failsArm => exact ⟨rfl, rfl, rfl, rfl⟩
  | verifies => exact ⟨valid.symm, mode, wires, hz⟩

theorem rConvert_keeps_configuration (u : State) :
    (rConvert u).cfgValid = u.cfgValid ∧ (rConvert u).cfgMode = u.cfgMode ∧ (rConvert u).cfgWires = u.cfgWires ∧
      (rConvert u).cfgHz = u.cfgHz := by
  unfold rConvert
  split <;> exact ⟨rfl, rfl, rfl, rfl⟩

/-- Settles O40: only the retry could store a Configuration, and its operands are those stored. -/
theorem readKeepsTheConfiguration : Obligations.ReadKeepsTheConfiguration := by
  intro s h
  refine ⟨_, runSteps_read h, ?_⟩
  cases flag : faultFlag (fetched s).raw with
  | false =>
    rw [readRun_of_noFault flag]
    simpa using rConvert_keeps_configuration (fetched s)
  | true =>
    rw [readRun_of_fault flag]
    cases stored : s.cfgValid with
    | false => simp [stored]
    | true =>
      have ends := configuringRun_end (retryEntry (fetched s))
      simpa [retryEntry, stored] using ends.keeps_configuration (by simp [retryEntry, stored]) (by simp [retryEntry])
        (by simp [retryEntry]) (by simp [retryEntry])

end Sys2Proof.Safety
end

section
/-! PROOFS. The step rules of READ, one micro-state at a time, with the code register as a number and the fault
classification as bits (R66, R87 to R93, R104). -/

namespace Sys2Proof.Safety

open Sys2Proof.Machine

/-! ### The code register -/

/-- R34: the code register as a number, the first byte being the more significant. -/
theorem assembleCode_toNat (msb lsb : Byte) : (assembleCode msb lsb).toNat = msb.toNat * 256 + lsb.toNat := by
  rw [assembleCode, BitVec.toNat_append, ← Nat.shiftLeft_add_eq_or_of_lt lsb.isLt, Nat.shiftLeft_eq]

theorem assembleCode_eq_ofNat (msb lsb : Byte) :
    assembleCode msb lsb = BitVec.ofNat 16 (msb.toNat * 256 + lsb.toNat) := by
  rw [← assembleCode_toNat, BitVec.ofNat_toNat, BitVec.setWidth_eq]

/-- R66: the fault flag is set exactly from 128 on in the first byte. -/
theorem faultFlag_assembleCode_iff (msb lsb : Byte) :
    faultFlag (assembleCode msb lsb) = true ↔ 128 ≤ msb.toNat := by
  have top : faultFlag (assembleCode msb lsb) = msb.msb := by
    rw [faultFlag, assembleCode, BitVec.getLsbD_append, if_neg (by decide), BitVec.msb_eq_getLsbD_last]
  rw [top, BitVec.msb_eq_decide, decide_eq_true_iff]

/-- R66: the raw code is the register without its top bit. -/
theorem rawCode_assembleCode_toNat (msb lsb : Byte) :
    (rawCode (assembleCode msb lsb)).toNat = msb.toNat % 128 * 256 + lsb.toNat := by
  have := lsb.isLt
  rw [rawCode, BitVec.extractLsb'_toNat, assembleCode_toNat, Nat.shiftRight_zero]
  omega

/-- R104: the codes outside the calibrated range, which have no result. -/
theorem convert_eq_none_iff_outOfRange (code : Code) :
    convert code = none ↔ code.toNat < 7227 ∨ 7227 + Config.table.len ≤ code.toNat :=
  (convert_eq_none_iff code).trans (tableIndex_eq_none_iff code)

/-! ### The fetches -/

/-- R87: what `rReady` writes. -/
theorem rReady_eq (u : State) :
    rReady u =
      { u with
        history := u.history ++ [.rdy u.devReady], stale := !u.devReady, st := 11
        devReadies := u.devReadies.tail, draws := u.draws + 1 } := rfl

/-- Settles O31: `rReady` with the state it leaves written out. -/
theorem sampleDataReady : Obligations.SampleDataReady := by
  intro s hat
  rw [step_at hat (by decide), microStep, rReady_eq]

theorem popByte_popByte (u : State) :
    u.popByte.popByte = { u with devBytes := u.devBytes.tail.tail, draws := u.draws + 2 } := rfl

/-- R88: what reading the code register into `raw` writes, on the way to `m`. -/
theorem codeFetch_goto_eq (u : State) (v : BitVec 16) (m : MicroState) :
    ((memRead2 (DeviceReg.readAddress .rtdMsb) u).setRaw v).goto m =
      { u with
        history := u.history ++ [.busRd 0x01 2 [u.devByte, u.popByte.devByte]], raw := v, st := m.code
        devBytes := u.devBytes.tail.tail, draws := u.draws + 2 } := by
  rw [memRead2_eq, popByte_popByte]
  rfl

/-- R88: the branch on the fault flag is one on the first byte. -/
theorem code_after_fetch (msb lsb : Byte) :
    MicroState.code (if faultFlag (assembleCode msb lsb) then .rFault else .rConvert) =
      if 128 ≤ msb.toNat then 12 else 13 := by
  simp only [faultFlag_assembleCode_iff]
  split <;> rfl

/-- Settles O32: `rCode` with the register it assembles as a number. -/
theorem fetchCode : Obligations.FetchCode := by
  intro s hat
  rw [step_at hat (by decide), microStep, rCode, codeFetch_goto_eq, code_after_fetch, assembleCode_eq_ofNat]

/-! ### The fault path -/

/-- R93: what the completion of a READ without a retry writes. -/
theorem respondRead_eq_update (x : Status) (u : State) :
    respondRead x u =
      { u with
        rspStatus := x.code, rspValid := true, resultValid := x.hasResult, st := 0, cmd := none
        responses := u.responses ++ [⟨x.code, x.hasResult, u.tempC, u.tempK, u.tempF⟩] } := rfl

theorem classify_hasResult (fs : Byte) : (classify fs).hasResult = false := by
  have fault := classify_isDeviceFault fs
  cases h : classify fs with
  | ok | oldReading => simp [h, Status.isDeviceFault] at fault
  | _ => rfl

/-- Settles O33: the two ways of `takeFault` after the fault-status byte is read. -/
theorem classifyFaultAndRetry : Obligations.ClassifyFaultAndRetry := by
  intro s hat
  rw [step_at hat (by decide), microStep, rFault]
  refine congrArg Host.Outcome.next ?_
  rcases takeFault_cases (takeMove s).devByte (memRead1 (DeviceReg.readAddress .faultStatus) (takeMove s)) with
    ⟨stored, h⟩ | ⟨notStored, h⟩
  · rw [h]
    exact (if_pos stored).symm
  · rw [h, respondRead_eq_update, classify_hasResult]
    exact (if_neg (Bool.eq_false_iff.mp notStored)).symm

/-! ### The classification of a fault -/

theorem classify_eq_brokenRtdWire_iff (fs : Byte) : classify fs = .brokenRtdWire ↔ fs &&& 0xF8 ≠ 0 := by
  unfold classify
  split_ifs <;> simp_all

theorem classify_eq_circuitMalfunction_iff (fs : Byte) :
    classify fs = .circuitMalfunction ↔ fs &&& 0xF8 = 0 ∧ fs &&& 0x07 ≠ 0 := by
  unfold classify
  split_ifs <;> simp_all

theorem classify_eq_unknownError_iff (fs : Byte) :
    classify fs = .unknownError ↔ fs &&& 0xF8 = 0 ∧ fs &&& 0x07 = 0 := by
  unfold classify
  split_ifs <;> simp_all

/-- A masked byte is 0 exactly when the byte is clear at every bit of the mask. -/
theorem byte_and_eq_zero_iff (fs mask : Byte) :
    fs &&& mask = 0 ↔ ∀ i, i < 8 → mask.getLsbD i = true → fs.getLsbD i = false := by
  simp [byte_eq_iff_bits, imp_not_comm, ← Bool.not_eq_true]

theorem highMask_bit {i : Nat} (h : i < 8) : (0xF8 : Byte).getLsbD i = true ↔ 3 ≤ i := by
  revert i
  decide

theorem lowMask_bit {i : Nat} (h : i < 8) : (0x07 : Byte).getLsbD i = true ↔ i < 3 := by
  revert i
  decide

theorem highBits_clear_iff (fs : Byte) : fs &&& 0xF8 = 0 ↔ ∀ i, 3 ≤ i → i < 8 → fs.getLsbD i = false := by
  rw [byte_and_eq_zero_iff]
  exact ⟨fun h i hi h8 => h i h8 ((highMask_bit h8).mpr hi), fun h i h8 hi => h i ((highMask_bit h8).mp hi) h8⟩

theorem lowBits_clear_iff (fs : Byte) : fs &&& 0x07 = 0 ↔ ∀ i, i < 3 → fs.getLsbD i = false := by
  rw [byte_and_eq_zero_iff]
  exact ⟨fun h i hi => h i (by omega) ((lowMask_bit (by omega)).mpr hi),
    fun h i h8 hi => h i ((lowMask_bit h8).mp hi)⟩

/-- The two masks of R90 cover the byte. -/
theorem masks_clear_iff (fs : Byte) : fs &&& 0xF8 = 0 ∧ fs &&& 0x07 = 0 ↔ fs = 0x00 := by
  have cover : (0xF8 ||| 0x07 : Byte) = BitVec.allOnes 8 := rfl
  have split : (fs &&& 0xF8) ||| (fs &&& 0x07) = fs := by
    rw [← BitVec.and_or_distrib_left, cover, BitVec.and_allOnes]
  exact BitVec.or_eq_zero_iff.symm.trans (iff_of_eq (congrArg (· = 0) split))

/-- Settles O34: the masks of `classify` bit by bit. -/
theorem classificationByBits : Obligations.ClassificationByBits := by
  intro fs
  refine ⟨?_, ?_, ?_⟩
  · rw [classify_eq_brokenRtdWire_iff, Ne, highBits_clear_iff]
    simp
  · rw [classify_eq_circuitMalfunction_iff, Ne, highBits_clear_iff, lowBits_clear_iff]
    simp
  · rw [classify_eq_unknownError_iff, masks_clear_iff]

/-! ### The conversion -/

theorem rConvert_of_outOfRange {u : State} (h : convert (rawCode u.raw) = none) :
    rConvert u = respondRead .outOfRange u := by
  simp only [rConvert, h]

theorem rConvert_of_inRange {u : State} {r : Reading} (h : convert (rawCode u.raw) = some r) :
    rConvert u = respondRead (readingStatus u.stale) (writeReading r u) := by
  simp only [rConvert, h]

theorem readingStatus_hasResult (stale : Bool) : (readingStatus stale).hasResult = true := by
  cases stale <;> rfl

theorem readingStatus_code_eq (stale : Bool) : (readingStatus stale).code = if stale = true then 1 else 0 := by
  cases stale <;> rfl

/-- Settles O35: the two answers of the conversion engine. -/
theorem convertAndRespond : Obligations.ConvertAndRespond := by
  intro s hat
  rw [step_at hat (by decide), microStep]
  refine congrArg Host.Outcome.next ?_
  cases reading : convert ((takeMove s).raw.extractLsb' 0 15) with
  | none => exact rConvert_of_outOfRange reading
  | some r =>
    rw [rConvert_of_inRange reading, respondRead_eq_update, readingStatus_hasResult, readingStatus_code_eq]
    rfl

end Sys2Proof.Safety
end

section
/-! PROOFS. How a READ as a whole command ends: idle with nothing waiting, within four steps unless it retries, and
with the one status that R94 puts first (R86, R94, R95, R97). -/

namespace Sys2Proof.Safety

open Sys2Proof.Machine

/-! ### The ends of a READ -/

/-- The ends of a READ that waits in `s`, `u` being the state after its code fetch (R86). -/
inductive ReadEnd (u : State) : State → Prop where
  /-- The fault flag is set and the stored Configuration is written again (R89). -/
  | retries (fault : faultFlag u.raw = true) (stored : u.cfgValid = true) :
      ReadEnd u (configuringRun (retryEntry u))
  /-- The fault flag is set and there is no stored Configuration (R89). -/
  | reportsFault (fault : faultFlag u.raw = true) (notStored : u.cfgValid = false) :
      ReadEnd u (respondRead (classify u.devByte) (afterFaultFetch u))
  /-- The code is out of range (R92). -/
  | outOfRange (noFault : faultFlag u.raw = false) (noReading : convert (rawCode u.raw) = none) :
      ReadEnd u (respondRead .outOfRange u)
  /-- The code is converted (R92). -/
  | converts (r : Reading) (noFault : faultFlag u.raw = false) (inRange : convert (rawCode u.raw) = some r) :
      ReadEnd u (respondRead (readingStatus u.stale) (writeReading r u))

theorem readRun_end (s : State) : ReadEnd (fetched s) (readRun s) := by
  cases fault : faultFlag (fetched s).raw with
  | true =>
    rw [readRun_of_fault fault, ← fetched_cfgValid s]
    cases stored : (fetched s).cfgValid with
    | true => exact .retries fault stored
    | false => exact .reportsFault fault stored
  | false =>
    rw [readRun_of_noFault fault]
    cases reading : convert (rawCode (fetched s).raw) with
    | none => exact rConvert_of_outOfRange reading ▸ .outOfRange fault reading
    | some r => exact rConvert_of_inRange reading ▸ .converts r fault reading

theorem ReadEnd.idle {u t : State} (h : ReadEnd u t) : t.micro = some .idle := by
  cases h with
  | retries =>
    obtain ⟨idle, -⟩ := configuringRun_ends (retryEntry u)
    exact idle
  | reportsFault | outOfRange | converts => rfl

theorem ReadEnd.cmdValid {u t : State} (h : ReadEnd u t) : t.cmdValid = u.cmdValid := by
  cases h with
  | retries =>
    obtain ⟨-, port, -⟩ := configuringRun_ends (retryEntry u)
    exact port
  | reportsFault | outOfRange | converts => rfl

/-- Settles O36: the run of thirteen steps, each end of which is idle with the port as after acceptance. -/
theorem readRunsAsWritten : Obligations.ReadRunsAsWritten := by
  intro s h
  have ends := readRun_end s
  exact ⟨runSteps_read h, ends.idle, ends.cmdValid.trans (fetched_cmdValid s)⟩

/-! ### A READ without a retry -/

/-- R95: without a retry a READ responds and leaves `armed`. -/
theorem ReadEnd.responds_of_noRetry {u t : State} (h : ReadEnd u t)
    (noRetry : faultFlag u.raw = false ∨ u.cfgValid = false) : t.rspValid = true ∧ t.armed = u.armed := by
  cases h with
  | retries fault stored => simp [fault, stored] at noRetry
  | reportsFault | outOfRange | converts => exact ⟨rfl, rfl⟩

/-- R97: the step after the code fetch ends a READ that does not retry. -/
theorem runSteps_read_noRetry {s : State} (h : Awaits s .read)
    (noRetry : faultFlag (fetched s).raw = false ∨ s.cfgValid = false) : runSteps 4 s = .next (readRun s) := by
  rw [runSteps_fetch h 1]
  cases flag : faultFlag (fetched s).raw with
  | false =>
    rw [readRun_of_noFault flag, ← convertStep_eq]
    exact (fetched_alone h .rConvert).runSteps_succ (by decide) 0
  | true =>
    have notStored : s.cfgValid = false := noRetry.resolve_left (by simp [flag])
    refine ((fetched_alone h .rFault).runSteps_succ (by decide) 0).trans ?_
    rw [microStep, faultStep_eq, fetched_cfgValid, readRun_of_fault flag, notStored]
    rfl

/-- Settles O37: the four steps give what R86 writes out, which ends without a retry. -/
theorem readWithoutRetryTakesFourSteps : Obligations.ReadWithoutRetryTakesFourSteps := by
  intro s h noRetry
  rw [← fetched_faultFlag] at noRetry
  have ends := readRun_end s
  obtain ⟨responds, armed⟩ := ends.responds_of_noRetry (by rwa [fetched_cfgValid])
  exact ⟨_, runSteps_read_noRetry h noRetry, ends.idle, responds, armed.trans (by simp [fetched])⟩

/-! ### The status of a READ -/

/-- R94: fault before range before staleness, in the registers after the code fetch. -/
theorem ReadEnd.status {u t : State} (h : ReadEnd u t) :
    t.rspStatus =
      if faultFlag u.raw = true then (classify u.devByte).code
      else if convert (rawCode u.raw) = none then 10
      else if u.stale = true then 1
      else 0 := by
  cases h with
  | retries fault =>
    obtain ⟨-, -, -, -, status⟩ := configuringRun_ends (retryEntry u)
    rw [if_pos fault, status rfl]
    simp [retryEntry]
  | reportsFault fault =>
    rw [if_pos fault]
    rfl
  | outOfRange noFault noReading =>
    rw [if_neg (Bool.eq_false_iff.mp noFault), if_pos noReading]
    rfl
  | converts r noFault inRange =>
    rw [if_neg (Bool.eq_false_iff.mp noFault), if_neg (by simp [inRange]), ← readingStatus_code_eq]
    rfl

theorem fetched_stale (s : State) : (fetched s).stale = !s.devReady := by simp [fetched]

/-- Settles O38: `ReadEnd.status` with the registers read as the device's answers. -/
theorem readStatusPriority : Obligations.ReadStatusPriority := by
  intro s h
  refine ⟨_, runSteps_read h, ?_⟩
  have raw : (fetched s).raw = assembleCode s.popReady.devByte s.popReady.popByte.devByte := fetched_raw s
  have status := (readRun_end s).status
  simp only [raw, faultFlag_assembleCode_iff, convert_eq_none_iff_outOfRange, rawCode_assembleCode_toNat, fetched_stale,
    fetched_devByte, Bool.not_eq_true'] at status
  exact status

end Sys2Proof.Safety
end

section
/-! PROOFS. The conversion engine on every code: the entry it reads, the ranges of its results, their order and the
source's three scenarios (R102 to R110). -/

namespace Sys2Proof.Safety

open Sys2Proof.Machine

/-! ### The reading of a table entry -/

/-- The three temperatures of `c` hundredths of a degree Celsius (R105, R106, R107). -/
def readingOf (c : Int) : Reading := ⟨c, c + 27315, 18 * c + 32000⟩

theorem readingOf_mono {c d : Int} (h : c ≤ d) :
    (readingOf c).c ≤ (readingOf d).c ∧ (readingOf c).k ≤ (readingOf d).k ∧ (readingOf c).f ≤ (readingOf d).f := by
  simp only [readingOf]
  omega

/-- R102, R104: the code that is `i` above the lowest one gives the reading of entry `i`. -/
theorem convert_of_entry {code : Code} {i : Nat} {c : Int} (index : code.toNat = 7227 + i)
    (inTable : i < Config.table.len) (entry : (Config.table.entry ⟨i, inTable⟩).toInt = c) :
    convert code = some (readingOf c) := by
  have read := convert_of_tableIndex
    (tableIndex_of_inRange (show 7227 ≤ code.toNat by omega) (show code.toNat < 7227 + Config.table.len by omega))
  simp only [index, Nat.add_sub_cancel_left, entry] at read
  exact read

theorem convert_of_inRange {code : Code} (low : 7227 ≤ code.toNat)
    (inTable : code.toNat - 7227 < Config.table.len) :
    convert code = some (readingOf (Config.table.entry ⟨code.toNat - 7227, inTable⟩).toInt) :=
  convert_of_entry (by omega) inTable rfl

/-- R98: every result is the reading of a 16-bit signed number. -/
theorem exists_entry_of_convert {code : Code} {r : Reading} (h : convert code = some r) :
    ∃ entry : BitVec 16, r = readingOf entry.toInt := by
  cases index : tableIndex code with
  | none => simp [(convert_eq_none_iff code).mpr index] at h
  | some i => exact ⟨_, Option.some.inj (h.symm.trans (convert_of_tableIndex index))⟩

/-- Settles O42: in range by `convert_of_inRange`, outside by `convert_eq_none_iff_outOfRange`. -/
theorem conversionOfEveryCode : Obligations.ConversionOfEveryCode := by
  intro code
  refine ⟨fun inRange => convert_of_inRange inRange.1 (by omega), fun outside => ?_⟩
  exact (convert_eq_none_iff_outOfRange code).mpr (by omega)

/-! ### The ranges of the results -/

/-- R108: the ranges, from those of a 16-bit signed number. -/
theorem readingOf_entry_bounds (entry : BitVec 16) :
    (-32768 ≤ (readingOf entry.toInt).c ∧ (readingOf entry.toInt).c ≤ 32767) ∧
    (-5453 ≤ (readingOf entry.toInt).k ∧ (readingOf entry.toInt).k ≤ 60082) ∧
    (-557824 ≤ (readingOf entry.toInt).f ∧ (readingOf entry.toInt).f ≤ 621806) := by
  have low : -32768 ≤ entry.toInt := entry.le_toInt
  have high : entry.toInt < 32768 := entry.toInt_lt
  simp only [readingOf]
  omega

/-- Settles O43: the ranges of `readingOf_entry_bounds` lie within those of 32 signed bits. -/
theorem conversionFitsTheRegisters : Obligations.ConversionFitsTheRegisters := by
  intro code r s converted
  obtain ⟨entry, rfl⟩ := exists_entry_of_convert converted
  obtain ⟨hc, hk, hf⟩ := readingOf_entry_bounds entry
  simp only [writeReading_tempC, writeReading_tempK, writeReading_tempF]
  refine ⟨hc, hk, hf, ?_, ?_, ?_⟩ <;> apply BitVec.toInt_ofInt_eq_self <;> omega

/-! ### The order of the results -/

/-- Settles O44: both codes read an entry, and the table is non-decreasing (`table_monotone`). -/
theorem conversionIsMonotone : Obligations.ConversionIsMonotone := by
  intro a b low ordered high
  have bInTable : b.toNat - 7227 < Config.table.len := by
    have := Config.table.len_ge
    simp only [Config.maxCode, Config.minCode] at high
    omega
  have indices : a.toNat - 7227 ≤ b.toNat - 7227 := Nat.sub_le_sub_right ordered _
  exact ⟨_, _, convert_of_inRange low (indices.trans_lt bInTable), convert_of_inRange (low.trans ordered) bInTable,
    readingOf_mono (table_monotone indices bInTable)⟩

/-! ### The source's scenarios -/

/-- Settles O45: the three entries of R99, read at 0, 965 and 7179 above the lowest code. -/
theorem conversionScenarios : Obligations.ConversionScenarios :=
  ⟨convert_of_entry rfl _ Config.table.entry_0, convert_of_entry rfl _ Config.table.entry_965,
    convert_of_entry rfl _ Config.table.entry_7179⟩

end Sys2Proof.Safety
end

section
/-! PROOFS. How a micro-state's step ends: no fault is taken inside a configuring sequence (R97, R118), and a
completion reports one status (R58, R83, R93). -/

namespace Sys2Proof.Safety

open Sys2Proof.Machine

theorem step_at_outcome {s t : State} {m : MicroState} (hat : At s m) (busy : m ≠ .idle) (h : step s = .next t) :
    MicroOutcome (takeMove s) m t := by
  cases (step_at hat busy).symm.trans h
  exact microStep_outcome busy _

/-! ### The end of a configuring micro-state -/

/-- R118: of the outcomes, the fault path's belong to `R_FAULT`, which is no configuring micro-state. -/
theorem microOutcome_configuring {s t : State} {m : MicroState} (configuring : m.configuring = true)
    (h : MicroOutcome s m t) :
    (t.micro = some .idle ∧ t.ctx = false) ∨
    (∃ m', t.micro = some m' ∧ m'.configuring = true ∧ t.ctx = s.ctx ∧ t.pend = s.pend) := by
  cases h with
  | advances o micro _ kind => exact .inr ⟨_, micro, kind.trans configuring, rfl, rfl⟩
  | failsBias | failsArm | verifies => exact .inl ⟨rfl, rfl⟩
  | retries | reportsFault | outOfRange | converts => cases configuring

/-- Settles O41: `microOutcome_configuring` for the machine's step. -/
theorem faultPathNeverNests : Obligations.FaultPathNeverNests := by
  intro s t m hat configuring h
  have busy : m ≠ .idle := by
    rintro rfl
    cases configuring
  exact microOutcome_configuring (s := takeMove s) configuring (step_at_outcome hat busy h)

/-! ### The status of a completion -/

/-- From `s` to `t` a command completes: one response is added, which is what the output registers show, and its
status is one of R58 or the `pend` of a retry. -/
structure Reports (s t : State) : Prop where
  valid : t.rspValid = true
  response : t.responses = s.responses ++ [⟨t.rspStatus, t.resultValid, t.tempC, t.tempK, t.tempF⟩]
  status : (∃ x : Status, t.rspStatus = x.code) ∨ (s.ctx = true ∧ t.rspStatus = s.pend)

/-- R93. -/
theorem Reports.of_respondRead {s u : State} (x : Status) (responses : u.responses = s.responses) :
    Reports s (respondRead x u) where
  valid := rfl
  response := congrArg (· ++ _) responses
  status := .inl ⟨x, rfl⟩

/-- R83: outside a retry and inside one. -/
theorem Reports.of_respondConfiguring {s u : State} (x : Status) (responses : u.responses = s.responses)
    (ctx : u.ctx = s.ctx) (pend : u.pend = s.pend) : Reports s (respondConfiguring x u) where
  valid := rfl
  response := congrArg (· ++ _) responses
  status := by
    rw [respondConfiguring_status, ctx, pend]
    cases s.ctx with
    | false => exact .inl ⟨x, rfl⟩
    | true => exact .inr ⟨rfl, rfl⟩

theorem microOutcome_reports {s t : State} {m : MicroState} (h : MicroOutcome s m t)
    (completed : t.micro = some .idle) : Reports s t := by
  cases h with
  | advances o micro busy => exact absurd (Option.some.inj (micro.symm.trans completed)) busy
  | retries => cases completed
  | failsBias | failsArm | verifies => exact .of_respondConfiguring _ rfl rfl rfl
  | reportsFault | outOfRange | converts => exact .of_respondRead _ rfl

/-- Settles O60: `microOutcome_reports` for the machine's step. -/
theorem completionReportsOneStatus : Obligations.CompletionReportsOneStatus := by
  intro s t m hat busy h completed
  obtain ⟨valid, response, status⟩ := microOutcome_reports (step_at_outcome hat busy h) completed
  exact ⟨valid, response, status⟩

end Sys2Proof.Safety
end

section
/-! PROOFS. Reset: the registers and the two derived outputs it gives (R129), and its arrival as a move (R130). -/

namespace Sys2Proof.Safety

open Sys2Proof.Machine

/-- R15: with `st = IDLE` the source state is told by `armed`. -/
theorem fsmState_of_idle {s : State} (idle : s.micro = some .idle) :
    s.fsmState = some (if s.armed then .armed else .unconfigured) := by
  simp [State.fsmState, idle]

/-- Settles O48: the stored registers are those of `State.reset`, and both outputs follow from `IDLE`. -/
theorem resetValues : Obligations.ResetValues := by
  have idle : State.reset.micro = some .idle := rfl
  have disarmed : State.reset.fsmState = some .unconfigured := fsmState_of_idle idle
  have ready : State.reset.cmdReady = true := (State.cmdReady_iff _).mpr idle
  exact ⟨idle, rfl, rfl, rfl, rfl, rfl, rfl, rfl, rfl, rfl, rfl, rfl, rfl, rfl, rfl, rfl, rfl, rfl, rfl, rfl, rfl, rfl,
    rfl, rfl, disarmed, ready⟩

/-- The next step is the first move of the agenda, made with the others still to come. -/
theorem step_of_agenda_cons {s : State} {m : Move} {rest : List Move} (h : s.agenda = m :: rest) :
    step s = act m { s with agenda := rest } := by
  simp [step, nextMove, takeMove, h]

/-- Settles O49: the move of the step is `applyReset`, which keeps what is not the sequencer's. -/
theorem resetArrivesAnywhere : Obligations.ResetArrivesAnywhere := by
  intro s rest arrives
  exact step_of_agenda_cons arrives

end Sys2Proof.Safety
end
